-- ==== Sys2Proof/Word.lean ====
section
/-! DEFINITION. The word types of CRCQ (00_scope.md rules R8, R9): bit 0 is the least significant bit of a value. -/

namespace Sys2Proof

/-- An 8-bit byte, the input unit of the CRC (00_scope.md rule R6). -/
abbrev Byte := BitVec 8

/-- A 16-bit value: the width of QNT_OUT and of a 2-byte feed. -/
abbrev Half := BitVec 16

/-- A 32-bit word, the bus data width (00_scope.md rule R6). -/
abbrev Word := BitVec 32

end Sys2Proof
end

