-- ==== Sys2Proof/Syntax.lean ====
section
/-! DEFINITION. The transactions of CRCQ and its 16 operations, one constructor of `Instr` per row of
spec/opcode_table.json (30_encoding.md rules R60, R68). -/

namespace Sys2Proof

/-- One bus transaction as it arrives at the port (30_encoding.md rule R60). -/
structure Transaction where
  /-- W: true is 1, a write; false is 0, a read. -/
  w : Bool
  /-- SZ: the access size code (rule R61). -/
  sz : BitVec 2
  /-- OFF: the byte offset in the 64-byte window. -/
  off : BitVec 6
  /-- WDATA: the write data; ignored when W = 0. -/
  wdata : Word
  deriving DecidableEq, Repr

/-- The two transactions are one as rule R60 gives it its fields: W, SZ and OFF agree, and WDATA does where it is present,
in a write. -/
abbrev Transaction.SameFields (t t' : Transaction) : Prop :=
  t.w = t'.w ∧ t.sz = t'.sz ∧ t.off = t'.off ∧ (t.w = true → t.wdata = t'.wdata)

/-- RESP, the one response bit of 30_encoding.md rule R60. -/
inductive Resp where
  | ok
  | err
  deriving DecidableEq, Repr

/-- The cause of a bus error: a label of the model and of the spec, which the bus does not carry
(60_exceptions.md rule R141). -/
inductive BusErrorCause where
  /-- ERR_SIZE, code 1. -/
  | errSize
  /-- ERR_ALIGN, code 2. -/
  | errAlign
  /-- ERR_UNMAPPED, code 3. -/
  | errUnmapped
  deriving DecidableEq, Repr

/-- The mapped registers of the window (30_encoding.md rule R62). -/
inductive Reg where
  | qntIn
  | qntOut
  | qntStatus
  | crcCtrl
  | crcData
  | crcState
  | crcResult
  deriving DecidableEq, Repr

/-- The two functional units (00_scope.md rule R1). -/
inductive FunctionalUnit where
  | qnt
  | crc
  deriving DecidableEq, Repr

/-- The 16 operations of rule R68. A write carries the operand that rule R67 assembles from WDATA: 8 bits for SZ = 00,
16 for SZ = 01, 32 for SZ = 10. A read has no operand. -/
inductive Instr where
  /-- QNT_IN_RD (41_quantizer.md rule R87). -/
  | qntInRd
  /-- QNT_OUT_RD (41_quantizer.md rule R88). -/
  | qntOutRd
  /-- QNT_STATUS_RD (41_quantizer.md rule R90). -/
  | qntStatusRd
  /-- CRC_CTRL_RD (42_crc.md rule R113). -/
  | crcCtrlRd
  /-- CRC_DATA_RD (42_crc.md rule R119). -/
  | crcDataRd
  /-- CRC_STATE_RD (42_crc.md rule R121). -/
  | crcStateRd
  /-- CRC_RESULT_RD (42_crc.md rule R118). -/
  | crcResultRd
  /-- CRC_DATA_WR8 (42_crc.md rule R114). -/
  | crcDataWr8 (b : Byte)
  /-- CRC_DATA_WR16 (42_crc.md rule R115). -/
  | crcDataWr16 (h : Half)
  /-- QNT_IN_WR (41_quantizer.md rule R86). -/
  | qntInWr (wdata : Word)
  /-- QNT_OUT_WR (41_quantizer.md rule R89); the operand is ignored. -/
  | qntOutWr (wdata : Word)
  /-- QNT_STATUS_WR (41_quantizer.md rule R91). -/
  | qntStatusWr (wdata : Word)
  /-- CRC_CTRL_WR (42_crc.md rule R112). -/
  | crcCtrlWr (wdata : Word)
  /-- CRC_DATA_WR32 (42_crc.md rule R116). -/
  | crcDataWr32 (wdata : Word)
  /-- CRC_STATE_WR (42_crc.md rule R117). -/
  | crcStateWr (wdata : Word)
  /-- CRC_RESULT_WR (42_crc.md rule R120); the operand is ignored. -/
  | crcResultWr (wdata : Word)
  deriving DecidableEq, Repr

/-- The unit an operation belongs to (30_encoding.md rule R62, column "unit"). -/
def Instr.functionalUnit : Instr → FunctionalUnit
  | .qntInRd | .qntOutRd | .qntStatusRd | .qntInWr _ | .qntOutWr _ | .qntStatusWr _ => .qnt
  | .crcCtrlRd | .crcDataRd | .crcStateRd | .crcResultRd | .crcDataWr8 _ | .crcDataWr16 _ | .crcCtrlWr _
  | .crcDataWr32 _ | .crcStateWr _ | .crcResultWr _ => .crc

/-- Whether an operation is a read (W = 0 in rule R68). -/
def Instr.isRead : Instr → Bool
  | .qntInRd | .qntOutRd | .qntStatusRd | .crcCtrlRd | .crcDataRd | .crcStateRd | .crcResultRd => true
  | .crcDataWr8 _ | .crcDataWr16 _ | .qntInWr _ | .qntOutWr _ | .qntStatusWr _ | .crcCtrlWr _ | .crcDataWr32 _
  | .crcStateWr _ | .crcResultWr _ => false

end Sys2Proof
end

