-- ==== Sys2Proof/WellFormed.lean ====
section
/-! DEFINITION. Which transactions are well formed, read from the prose of 20_memory.md rule R44 and 30_encoding.md
rules R61, R63 and R65, apart from the decoder (rule R66). Operand widths of `Instr` are carried by its types, so every
term of `Instr` is well formed; what can be ill formed is a transaction. -/

namespace Sys2Proof

/-- The size code is not the reserved one (30_encoding.md rule R61). -/
def Transaction.sizeDefined (t : Transaction) : Bool :=
  t.sz != 0b11

/-- The offset is a multiple of 4 (20_memory.md rule R44). -/
def Transaction.aligned (t : Transaction) : Bool :=
  t.off.toNat % 4 == 0

/-- The reserved offsets (30_encoding.md rule R65). -/
def reservedOffsets : List Nat := [0x0C, 0x20, 0x24, 0x28, 0x2C, 0x30, 0x34, 0x38, 0x3C]

/-- The offset is not reserved (30_encoding.md rule R65). -/
def Transaction.mapped (t : Transaction) : Bool :=
  !reservedOffsets.contains t.off.toNat

/-- The direction and size are ones the registers accept: 4 bytes, or a narrower write to CRC_DATA
(30_encoding.md rule R63). -/
def Transaction.sizePermitted (t : Transaction) : Bool :=
  t.sz == 0b10 || (t.w && t.off == 0x14 && (t.sz == 0b00 || t.sz == 0b01))

/-- A transaction that selects an operation. -/
def Transaction.wf (t : Transaction) : Bool :=
  t.sizeDefined && t.aligned && t.mapped && t.sizePermitted

end Sys2Proof
end

