-- ==== Sys2Proof/Decode.lean ====
section
/-! DEFINITION. The decoder of 30_encoding.md rule R66, total on every transaction and rejecting by cause, and the
encoder written from the table of rule R68. -/

namespace Sys2Proof

/-- The code of a cause (60_exceptions.md rule R141). -/
def BusErrorCause.code : BusErrorCause → Nat
  | .errSize => 1
  | .errAlign => 2
  | .errUnmapped => 3

/-- `nbytes(SZ)`: 1, 2 or 4; the code 0b11 is reserved (30_encoding.md rule R61). -/
def nbytes (sz : BitVec 2) : Option Nat :=
  if sz = 0b00 then some 1 else if sz = 0b01 then some 2 else if sz = 0b10 then some 4 else none

/-- The offset of a mapped register (30_encoding.md rule R62). -/
def Reg.offset : Reg → BitVec 6
  | .qntIn => 0x00
  | .qntOut => 0x04
  | .qntStatus => 0x08
  | .crcCtrl => 0x10
  | .crcData => 0x14
  | .crcState => 0x18
  | .crcResult => 0x1C

/-- The mapped register at an offset, if there is one (30_encoding.md rule R62; the list of rule R66). -/
def Reg.ofOffset (off : BitVec 6) : Option Reg :=
  if off = 0x00 then some .qntIn
  else if off = 0x04 then some .qntOut
  else if off = 0x08 then some .qntStatus
  else if off = 0x10 then some .crcCtrl
  else if off = 0x14 then some .crcData
  else if off = 0x18 then some .crcState
  else if off = 0x1C then some .crcResult
  else none

/-- The 9-bit descriptor D = {W, SZ, OFF} (30_encoding.md rule R60). -/
def Transaction.descriptor (t : Transaction) : BitVec 9 :=
  BitVec.ofBool t.w ++ t.sz ++ t.off

/-- The transaction with a given descriptor and write data: D[8] = W, D[7:6] = SZ, D[5:0] = OFF (rule R60). -/
def Transaction.ofDescriptor (d : BitVec 9) (wdata : Word) : Transaction where
  w := d.getLsbD 8
  sz := d.extractLsb' 6 2
  off := d.extractLsb' 0 6
  wdata := wdata

/-- The operation at a mapped register for a permitted size, with its operand (30_encoding.md rules R67, R68). -/
def operationAt (t : Transaction) (r : Reg) : Instr :=
  if t.w then
    match r with
    | .qntIn => .qntInWr t.wdata
    | .qntOut => .qntOutWr t.wdata
    | .qntStatus => .qntStatusWr t.wdata
    | .crcCtrl => .crcCtrlWr t.wdata
    | .crcData =>
      if t.sz = 0b00 then .crcDataWr8 (t.wdata.extractLsb' 0 8)
      else if t.sz = 0b01 then .crcDataWr16 (t.wdata.extractLsb' 0 16)
      else .crcDataWr32 t.wdata
    | .crcState => .crcStateWr t.wdata
    | .crcResult => .crcResultWr t.wdata
  else
    match r with
    | .qntIn => .qntInRd
    | .qntOut => .qntOutRd
    | .qntStatus => .qntStatusRd
    | .crcCtrl => .crcCtrlRd
    | .crcData => .crcDataRd
    | .crcState => .crcStateRd
    | .crcResult => .crcResultRd

/-- The decoder, with its checks in the order of 30_encoding.md rule R66 (60_exceptions.md rule R142). It reads nothing
but the transaction (rule R71). -/
def decode (t : Transaction) : Except BusErrorCause Instr :=
  if t.sz = 0b11 then .error .errSize
  else if t.off.extractLsb' 0 2 ≠ 0b00 then .error .errAlign
  else
    match Reg.ofOffset t.off with
    | none => .error .errUnmapped
    | some r =>
      if t.sz = 0b10 ∨ (t.w = true ∧ t.off = 0x14) then .ok (operationAt t r) else .error .errSize

/-- The instruction of a well-formed transaction, none where the decoder raises a bus error. -/
def decodeTransaction (t : Transaction) : Option Instr :=
  match decode t with
  | .ok i => some i
  | .error _ => none

/-- The descriptor column of the table of 30_encoding.md rule R68. -/
def Instr.descriptor : Instr → BitVec 9
  | .qntInRd => 0x080
  | .qntOutRd => 0x084
  | .qntStatusRd => 0x088
  | .crcCtrlRd => 0x090
  | .crcDataRd => 0x094
  | .crcStateRd => 0x098
  | .crcResultRd => 0x09C
  | .crcDataWr8 _ => 0x114
  | .crcDataWr16 _ => 0x154
  | .qntInWr _ => 0x180
  | .qntOutWr _ => 0x184
  | .qntStatusWr _ => 0x188
  | .crcCtrlWr _ => 0x190
  | .crcDataWr32 _ => 0x194
  | .crcStateWr _ => 0x198
  | .crcResultWr _ => 0x19C

/-- The WDATA of an operation: its operand in the low lanes, zero above (30_encoding.md rules R67, R72); zero for a
read. -/
def Instr.wdata : Instr → Word
  | .qntInRd | .qntOutRd | .qntStatusRd | .crcCtrlRd | .crcDataRd | .crcStateRd | .crcResultRd => 0
  | .crcDataWr8 b => b.setWidth 32
  | .crcDataWr16 h => h.setWidth 32
  | .qntInWr v | .qntOutWr v | .qntStatusWr v | .crcCtrlWr v | .crcDataWr32 v | .crcStateWr v | .crcResultWr v => v

/-- The transaction of an operation (30_encoding.md rules R60, R68). -/
def encode (i : Instr) : Transaction :=
  Transaction.ofDescriptor i.descriptor i.wdata

/-- The transaction whose bits are `w`, numbered from the opcode table: D in bits 8:0, nothing in bits 15:9 (the table's
9 bits rounded up to whole bytes), WDATA in bits 47:16; every bit from `nbits` up is 0. DESIGN CHOICE, log 1: the spec
numbers the descriptor's bits and leaves the wires to BUS_PROTOCOL. -/
def Transaction.ofTableWord (nbits w : Nat) : Transaction :=
  let v := w % 2 ^ nbits
  Transaction.ofDescriptor (BitVec.ofNat 9 v) (BitVec.ofNat 32 (v / 2 ^ 16))

/-- The instruction the decoder reads from an instruction whose bits are `w`, numbered as the opcode table numbers
them (log 1). -/
def decodeTableWord (nbits w : Nat) : Option Instr :=
  decodeTransaction (Transaction.ofTableWord nbits w)

end Sys2Proof
end

