-- ==== Sys2Proof/Config.lean ====
section
/-! DEFINITION. What is fixed for CRCQ (00_scope.md rule R6) and the parameters the spec leaves open (rule R7). -/

namespace Sys2Proof.Config

/-- The tie rule of the quantizer's rounding, parameter QNT_TIE (00_scope.md rule R7, 41_quantizer.md rule R84). -/
inductive QntTie where
  /-- HALF_UP: a half goes toward +infinity. -/
  | halfUp
  /-- HALF_AWAY: a half goes away from zero. -/
  | halfAway
  /-- HALF_EVEN: a half goes to the even integer. -/
  | halfEven
  deriving DecidableEq, Repr

/-- The kind of the reset input, parameter RESET_KIND (00_scope.md rule R7). The state after reset does not depend
on it (70_reset_and_hazards.md rule R160). -/
inductive ResetKind where
  | synchronous
  | asynchronous
  deriving DecidableEq, Repr

/-- A cycle-level handshake that carries one transaction, parameter BUS_PROTOCOL (00_scope.md rule R7). Rule R7 leaves it
open, so it is any reading of a transaction and its response off what the wires of the bus show in a sequence of cycles;
several sequences may carry the same exchange (wait states). DESIGN CHOICE (log 12): this form. -/
structure BusProtocol where
  /-- What the wires show in one cycle. -/
  Cycle : Type
  /-- The transaction that the cycles of one exchange carry, none where they carry no exchange. -/
  request : List Cycle → Option Transaction
  /-- The one response, RESP and RDATA, that these cycles return. -/
  response : List Cycle → Option (Resp × Word)

/-- The cycles carry the transaction `t`, with the fields of 30_encoding.md rule R60, and return this response. -/
def BusProtocol.Carries (b : BusProtocol) (cycles : List b.Cycle) (t : Transaction) (resp : Resp) (rdata : Word) : Prop :=
  (∃ t', b.request cycles = some t' ∧ t'.SameFields t) ∧ b.response cycles = some (resp, rdata)

/-- The constraint of rule R7: the handshake "carries the fields of 30_encoding.md rule R60 and returns one response", for
every transaction and every response that rule R60 allows it (RDATA is 0 for writes and for ERR). -/
abbrev BusProtocol.Valid (b : BusProtocol) : Prop :=
  ∀ (t : Transaction) (resp : Resp) (rdata : Word), (t.w = true ∨ resp = .err → rdata = 0) →
    ∃ cycles, b.Carries cycles t resp rdata

/-- The five open parameters of rule R7. The machine takes them as an argument (`machineWith`): QNT_TIE is held in State and
read by every conversion, CRCQ_BASE places the window (`busAccess`), BUS_PROTOCOL carries the transactions to the port. Rule
R7: no rule depends on any of them but QNT_TIE. -/
structure Parameters where
  /-- CRCQ_BASE: the bus address of offset 0x00 of the register window. -/
  crcqBase : Nat
  /-- BUS_PROTOCOL; it ends at the port, and no step reads it (log 12). -/
  busProtocol : BusProtocol
  /-- ACCESS_LATENCY: cycles from request to response; the model is untimed and reads it nowhere (rule R166). -/
  accessLatency : Nat
  /-- RESET_KIND. -/
  resetKind : ResetKind
  /-- QNT_TIE. -/
  qntTie : QntTie

/-- The constraints rule R7 puts on the open parameters: CRCQ_BASE is 64-byte aligned, BUS_PROTOCOL carries every
transaction and its response, ACCESS_LATENCY is at least 1. -/
abbrev Parameters.Valid (p : Parameters) : Prop :=
  p.crcqBase % 64 = 0 ∧ p.busProtocol.Valid ∧ 1 ≤ p.accessLatency

/-- CRCQ's own value of QNT_TIE (00_scope.md rule R6; 41_quantizer.md rule R84). It is the value of
`State.reset`; a machine of other parameters is `machineWith`. -/
def qntTie : QntTie := .halfUp

/-- The CRC polynomial in reflected form (rule R6). -/
def crcPolynomial : Word := 0xEDB88320

/-- The CRC initial register value (rule R6). -/
def crcInitial : Word := 0xFFFFFFFF

/-- The CRC output transform is an exclusive OR with this value (rule R6; 90_conflicts.md C1). -/
def crcOutputXor : Word := 0xFFFFFFFF

/-- The scale of a negative sample (rule R6). -/
def qntNegativeScale : Int := 32768

/-- The scale of a non-negative sample (rule R6). -/
def qntNonNegativeScale : Int := 32767

end Sys2Proof.Config
end

