-- ==== Sys2Proof/Machine/State.lean ====
section
/-! DEFINITION. The state of CRCQ (10_state.md rule R22), its port, and the state after reset (rule R33). -/

namespace Sys2Proof.Machine

/-- QNT_STATUS, 2 stored bits (10_state.md rule R26). -/
structure QntStatus where
  /-- CLAMP, bit 0. -/
  clamp : Bool
  /-- NAN, bit 1. -/
  nan : Bool
  deriving DecidableEq, Repr

/-- The four stored values that are the complete architectural state of CRCQ (10_state.md rule R22). -/
structure Registers where
  /-- CRC_STATE: the raw CRC register (rule R23). -/
  crcState : Word
  /-- QNT_IN: the bit pattern of the last sample written (rule R24). -/
  qntIn : Word
  /-- QNT_OUT: the quantized value, as an s16 bit pattern (rule R25). -/
  qntOut : Half
  /-- QNT_STATUS: the sticky flags (rule R26). -/
  qntStatus : QntStatus
  deriving DecidableEq, Repr

/-- The response to a transaction (30_encoding.md rule R60; 60_exceptions.md rules R140, R141). -/
inductive Response where
  /-- RESP = OK, with RDATA. -/
  | ok (rdata : Word)
  /-- RESP = ERR with RDATA = 0; the cause is a label of the model, not carried by the bus. -/
  | error (cause : BusErrorCause)
  deriving DecidableEq, Repr

/-- What can arrive at the block from outside, one event a step. -/
inductive BusEvent where
  /-- A host's transaction (30_encoding.md rule R60). -/
  | transaction (t : Transaction)
  /-- Reset, between transactions (70_reset_and_hazards.md rule R160), or overlapping a transaction, which is then
  abandoned. -/
  | reset (overlapped : Option Transaction)
  /-- The platform removes power or clock (60_exceptions.md rule R153). -/
  | powerLoss
  deriving DecidableEq, Repr

/-- Whether the stored values are specified (70_reset_and_hazards.md rule R161). -/
inductive Phase where
  /-- At or after a reset, with power and clock. -/
  | operating
  /-- Before the first reset, or after loss of power or clock and before the next reset. -/
  | unspecified
  deriving DecidableEq, Repr

/-- The state of the machine: the registers of rule R22, and the model's own fields: the block's port as plain data
(DESIGN CHOICE, log 2 and log 4) and the parameter QNT_TIE (DESIGN CHOICE, log 5). -/
structure State extends Registers where
  /-- The events still to arrive, oldest first (20_memory.md rule R45). -/
  pending : List BusEvent
  /-- The responses given so far, oldest first; no meaning reads it. -/
  responses : List Response
  /-- Whether the registers hold specified values. -/
  phase : Phase
  /-- The parameter QNT_TIE the block was built with (00_scope.md rule R7): read by a conversion, written by nothing. -/
  qntTie : Config.QntTie
  deriving DecidableEq, Repr

/-- Reasons for which the machine stops with a fault: none. CRCQ's only error is the bus error, after which it goes on
(60_exceptions.md rules R140, R145), so it is a next state with an ERR response (`State.busError`), not a fault
(DEDUCED, log 8). -/
inductive Fault where
  deriving DecidableEq, Repr

/-- Reasons for which the model gives a step no meaning. -/
inductive Refusal where
  /-- Raised by an arm of `exec` for an instruction that has no meaning yet; safe. No arm raises it now. -/
  | notModelled (mnemonic : String)
  /-- Raised by `perform` for a transaction before the first reset or after loss of power or clock; safe. The spec:
  "A model that must represent a pre-reset access refuses it" (70_reset_and_hazards.md rule R161). -/
  | beforeReset
  deriving DecidableEq, Repr

/-- The registers after reset (10_state.md rule R33). -/
def Registers.reset : Registers where
  crcState := 0xFFFFFFFF
  qntIn := 0x00000000
  qntOut := 0x0000
  qntStatus := { clamp := false, nan := false }

/-- The machine right after reset (70_reset_and_hazards.md rules R160, R161), with an idle port (log 2) and CRCQ's own
value of QNT_TIE (00_scope.md rules R6, R7). -/
def State.reset : State where
  toRegisters := Registers.reset
  pending := []
  responses := []
  phase := .operating
  qntTie := Config.qntTie

end Sys2Proof.Machine
end

