-- ==== Sys2Proof/Machine/Operands.lean ====
section
/-! DEFINITION. Operand forms: the byte lanes of a multi-byte feed (20_memory.md rules R41, R42) and the reading of a
binary32 bit pattern as an exact number (41_quantizer.md rule R81). -/

namespace Sys2Proof.Machine

/-- Byte lane k of a word, wdata[8k+7:8k] (20_memory.md rule R41). -/
def byteLane (w : Word) (k : Nat) : Byte :=
  w.extractLsb' (8 * k) 8

/-- The bytes a 2-byte feed consumes, low lane first (42_crc.md rule R115). -/
def halfBytes (h : Half) : List Byte :=
  [h.extractLsb' 0 8, h.extractLsb' 8 8]

/-- The bytes a 4-byte feed consumes, low lane first (42_crc.md rule R116). -/
def wordBytes (w : Word) : List Byte :=
  [byteLane w 0, byteLane w 1, byteLane w 2, byteLane w 3]

/-- The SIGN field, bit 31 (10_state.md rule R24). -/
def signField (b : Word) : Bool :=
  b.getLsbD 31

/-- The EXP field, bits 30:23, as an unsigned number (10_state.md rule R24). -/
def expField (b : Word) : Nat :=
  (b.extractLsb' 23 8).toNat

/-- The FRAC field, bits 22:0, as an unsigned number (10_state.md rule R24). -/
def fracField (b : Word) : Nat :=
  (b.extractLsb' 0 23).toNat

/-- What a binary32 bit pattern denotes (00_scope.md rule R10). -/
inductive Sample where
  /-- A NaN. -/
  | nan
  /-- +inf, or -inf when `negative`. -/
  | infinite (negative : Bool)
  /-- The exact number `units * 2^-149`. -/
  | finite (units : Int)
  deriving DecidableEq, Repr

/-- How many units of 2^-149 make 1. Every finite binary32 is a whole number of these units (DEDUCED from rule R81,
log 7), so the exact arithmetic of rule R10 is integer arithmetic here. -/
def unitsPerOne : Int :=
  2 ^ 149

/-- The magnitude of a finite pattern in units of 2^-149: `f * 2^-149` when e = 0, else `(2^23 + f) * 2^(e-150)`
(41_quantizer.md rule R81). -/
def magnitudeUnits (e f : Nat) : Nat :=
  if e = 0 then f else (2 ^ 23 + f) * 2 ^ (e - 1)

/-- `(-1)^sign * m`. -/
def applySign (negative : Bool) (m : Nat) : Int :=
  if negative then -(m : Int) else (m : Int)

/-- The number a bit pattern denotes (41_quantizer.md rules R81, R85). -/
def unpackSample (b : Word) : Sample :=
  if expField b = 0xFF then
    if fracField b ≠ 0 then .nan else .infinite (signField b)
  else
    .finite (applySign (signField b) (magnitudeUnits (expField b) (fracField b)))

end Sys2Proof.Machine
end

