-- ==== Sys2Proof/Machine/Flags.lean ====
section
/-! DEFINITION. The flags of CRCQ, QNT_STATUS.CLAMP and QNT_STATUS.NAN (10_state.md rules R26, R31): how a conversion
computes them, how they accumulate, how software clears them and how they read. -/

namespace Sys2Proof.Machine

/-- The clamp indicator: 1 exactly for a non-NaN sample above 1 or below -1, the infinities included
(41_quantizer.md rule R83). -/
def clampIndicator : Sample → Bool
  | .nan => false
  | .infinite _ => true
  | .finite x => decide (unitsPerOne < x) || decide (x < -unitsPerOne)

/-- The NaN indicator (41_quantizer.md rule R85). -/
def nanIndicator : Sample → Bool
  | .nan => true
  | .infinite _ => false
  | .finite _ => false

/-- A conversion ORs its indicators into the sticky flags (41_quantizer.md rule R86). -/
def QntStatus.accumulate (st : QntStatus) (c n : Bool) : QntStatus where
  clamp := st.clamp || c
  nan := st.nan || n

/-- Write one to clear: bit 0 clears CLAMP, bit 1 clears NAN, bits 31:2 are ignored (41_quantizer.md rule R91). -/
def QntStatus.clear (st : QntStatus) (wdata : Word) : QntStatus where
  clamp := st.clamp && !wdata.getLsbD 0
  nan := st.nan && !wdata.getLsbD 1

/-- The word a read of QNT_STATUS returns, zext_32({NAN, CLAMP}) (41_quantizer.md rule R90). -/
def QntStatus.toWord (st : QntStatus) : Word :=
  (BitVec.ofBool st.nan ++ BitVec.ofBool st.clamp).setWidth 32

end Sys2Proof.Machine
end

