-- ==== Sys2Proof/Machine/Ops.lean ====
section
/-! DEFINITION. The named operations over the registers and the port (00_scope.md rule R11), the bus error as one
shared operation (60_exceptions.md rule R140), and reset (70_reset_and_hazards.md rule R160). -/

namespace Sys2Proof.Machine

/-- RESP of a response (30_encoding.md rule R60). -/
def Response.resp : Response → Resp
  | .ok _ => .ok
  | .error _ => .err

/-- RDATA of a response: 0 for any ERR response (30_encoding.md rule R60; 60_exceptions.md rule R140). -/
def Response.rdata : Response → Word
  | .ok v => v
  | .error _ => 0

/-- The oldest event leaves the queue of arrivals, `rest` staying (20_memory.md rule R45). -/
def State.arrive (s : State) (rest : List BusEvent) : State :=
  { s with pending := rest }

/-- A response goes out at the port. -/
def State.respond (s : State) (r : Response) : State :=
  { s with responses := s.responses ++ [r] }

/-- `resp <- OK` with read data; RDATA is 0 for a write (30_encoding.md rule R60). -/
def State.complete (s : State) (rdata : Word) : State :=
  s.respond (.ok rdata)

/-- `raise BusError(cause)`: the transaction completes with RESP = ERR and RDATA = 0 and writes no state
(60_exceptions.md rule R140). Nothing returns from it: the next transaction is decoded normally (rule R146). -/
def State.busError (s : State) (cause : BusErrorCause) : State :=
  s.respond (.error cause)

/-- What a 32-bit read of a mapped register returns (30_encoding.md rule R62): the stored word, the sign extension of
QNT_OUT (41_quantizer.md rule R88), the flags (R90), 0 for a read-as-zero register (30_encoding.md rule R64), the
CRC register raw (42_crc.md rule R121) or with the output transform (R118). -/
def State.readReg (s : State) : Reg → Word
  | .qntIn => s.qntIn
  | .qntOut => s.qntOut.signExtend 32
  | .qntStatus => s.qntStatus.toWord
  | .crcCtrl => 0
  | .crcData => 0
  | .crcState => s.crcState
  | .crcResult => s.crcState ^^^ Config.crcOutputXor

/-- `reg[CRC_STATE] <- v`. -/
def State.writeCrcState (s : State) (v : Word) : State :=
  { s with crcState := v }

/-- `reg[QNT_IN] <- v`. -/
def State.writeQntIn (s : State) (v : Word) : State :=
  { s with qntIn := v }

/-- `reg[QNT_OUT] <- v`. -/
def State.writeQntOut (s : State) (v : Half) : State :=
  { s with qntOut := v }

/-- `reg[QNT_STATUS] <- st`. -/
def State.writeQntStatus (s : State) (st : QntStatus) : State :=
  { s with qntStatus := st }

/-- Reset: every register takes its reset value, all at once (70_reset_and_hazards.md rule R160; 10_state.md rule
R33). A transaction it overlaps has no effect and no response (rule R160; log 3). -/
def State.applyReset (s : State) : State :=
  { s with toRegisters := Registers.reset, phase := .operating }

/-- The machine right after reset, built with the given parameters (00_scope.md rule R7). Of the parameters only QNT_TIE
is part of the state; in particular the post-reset state does not depend on RESET_KIND (70_reset_and_hazards.md rule
R160). -/
def State.resetWith (p : Config.Parameters) : State :=
  { State.reset with qntTie := p.qntTie }

/-- The platform removes power or clock: no stored value is specified until the next reset (60_exceptions.md rule R153,
70_reset_and_hazards.md rule R161; log 4). -/
def State.losePower (s : State) : State :=
  { s with phase := .unspecified }

end Sys2Proof.Machine
end

