-- ==== Sys2Proof/Machine/Crc.lean ====
section
/-! DEFINITION. The CRC unit: the byte step of 42_crc.md rule R111 and the meanings of its ten operations (rules R112 to
R121). -/

namespace Sys2Proof.Machine

/-- One of the 8 iterations: "if low bit set, shift right and XOR polynomial, else shift right" (42_crc.md rule R111). -/
def crcShift (c : Word) : Word :=
  if c.getLsbD 0 then (c >>> 1) ^^^ Config.crcPolynomial else c >>> 1

/-- n iterations of `crcShift`. -/
def crcShifts : Nat → Word → Word
  | 0, c => c
  | n + 1, c => crcShifts n (crcShift c)

/-- `crc_byte(c, b)` (42_crc.md rule R111). -/
def crcByte (c : Word) (b : Byte) : Word :=
  crcShifts 8 (c ^^^ b.setWidth 32)

/-- `crc_bytes(c, bytes)` (42_crc.md rule R111). -/
def crcBytes : Word → List Byte → Word
  | c, [] => c
  | c, b :: bs => crcBytes (crcByte c b) bs

/-- The standard checksum `crc32(bytes)` (42_crc.md rule R123; 90_conflicts.md C1). -/
def crc32 (bytes : List Byte) : Word :=
  crcBytes Config.crcInitial bytes ^^^ Config.crcOutputXor

/-- Entry i of the lookup table, T[i] = crc_byte(0, i) (42_crc.md rule R122): a constant, not state
(10_state.md rule R32). -/
def crcTableEntry (i : Byte) : Word :=
  crcByte 0x00000000 i

/-- Feed bytes to the CRC register, in order, as one update (42_crc.md rules R114 to R116; 20_memory.md rule R46). -/
def State.feedBytes (s : State) (bytes : List Byte) : State :=
  s.writeCrcState (crcBytes s.crcState bytes)

/-- CRC_CTRL_WR: bit 0 is INIT, bits 31:1 are ignored (42_crc.md rule R112). -/
def execCrcCtrlWr (wdata : Word) (s : State) : Host.Outcome State Fault Refusal :=
  .next ((if wdata.getLsbD 0 then s.writeCrcState Config.crcInitial else s).complete 0)

/-- CRC_CTRL_RD: read as zero (42_crc.md rule R113). -/
def execCrcCtrlRd (s : State) : Host.Outcome State Fault Refusal :=
  .next (s.complete (s.readReg .crcCtrl))

/-- CRC_DATA_WR8: feed one byte (42_crc.md rule R114). -/
def execCrcDataWr8 (b : Byte) (s : State) : Host.Outcome State Fault Refusal :=
  .next ((s.feedBytes [b]).complete 0)

/-- CRC_DATA_WR16: feed two bytes, low byte first (42_crc.md rule R115). -/
def execCrcDataWr16 (h : Half) (s : State) : Host.Outcome State Fault Refusal :=
  .next ((s.feedBytes (halfBytes h)).complete 0)

/-- CRC_DATA_WR32: feed four bytes, low byte first (42_crc.md rule R116). -/
def execCrcDataWr32 (wdata : Word) (s : State) : Host.Outcome State Fault Refusal :=
  .next ((s.feedBytes (wordBytes wdata)).complete 0)

/-- CRC_DATA_RD: read as zero (42_crc.md rule R119). -/
def execCrcDataRd (s : State) : Host.Outcome State Fault Refusal :=
  .next (s.complete (s.readReg .crcData))

/-- CRC_STATE_WR: load the raw register (42_crc.md rule R117). -/
def execCrcStateWr (wdata : Word) (s : State) : Host.Outcome State Fault Refusal :=
  .next ((s.writeCrcState wdata).complete 0)

/-- CRC_STATE_RD: read the raw register (42_crc.md rule R121). -/
def execCrcStateRd (s : State) : Host.Outcome State Fault Refusal :=
  .next (s.complete (s.readReg .crcState))

/-- CRC_RESULT_RD: read the standard CRC-32 (42_crc.md rule R118). -/
def execCrcResultRd (s : State) : Host.Outcome State Fault Refusal :=
  .next (s.complete (s.readReg .crcResult))

/-- CRC_RESULT_WR: write ignored (42_crc.md rule R120). -/
def execCrcResultWr (_wdata : Word) (s : State) : Host.Outcome State Fault Refusal :=
  .next (s.complete 0)

end Sys2Proof.Machine
end

