-- ==== Sys2Proof/Machine/Quantizer.lean ====
section
/-! DEFINITION. The quantizer unit: the conversion of 41_quantizer.md rules R81 to R85 and the meanings of its six
operations (rules R86 to R91). -/

namespace Sys2Proof.Machine

/-- The triple (v, c, n) a conversion returns (41_quantizer.md rule R81). -/
structure Conversion where
  /-- v: the s16 result pattern. -/
  value : Half
  /-- c: the clamp indicator. -/
  clamp : Bool
  /-- n: the NaN indicator. -/
  nan : Bool
  deriving DecidableEq, Repr

/-- `s = min(1, max(-1, x))` in units of 2^-149 (41_quantizer.md rule R82); -inf gives -1 and +inf gives 1. A NaN is
converted without a clamp (rule R85) and has no s. -/
def clampSample : Sample → Option Int
  | .nan => none
  | .infinite negative => some (if negative then -unitsPerOne else unitsPerOne)
  | .finite x => some (min unitsPerOne (max (-unitsPerOne) x))

/-- The exact product p in units of 2^-149: `s * 32768` if s < 0, else `s * 32767` (41_quantizer.md rule R81). -/
def scaleSample (s : Int) : Int :=
  if s < 0 then s * Config.qntNegativeScale else s * Config.qntNonNegativeScale

/-- `floor(p + 1/2)` of the exact rational p = num / den, den positive. -/
def roundHalfUp (num den : Int) : Int :=
  (2 * num + den) / (2 * den)

/-- `roundQ(p)` of the exact rational p = num / den, den positive (41_quantizer.md rule R84). -/
def roundQ (tie : Config.QntTie) (num den : Int) : Int :=
  match tie with
  | .halfUp => roundHalfUp num den
  | .halfAway => if 0 ≤ num then roundHalfUp num den else -roundHalfUp (-num) den
  | .halfEven =>
    if 2 * (num % den) < den then num / den
    else if den < 2 * (num % den) then num / den + 1
    else if num / den % 2 = 0 then num / den
    else num / den + 1

/-- The integer k that a non-NaN sample with clamped value s gives (41_quantizer.md rule R81). -/
def quantizedInteger (tie : Config.QntTie) (s : Int) : Int :=
  roundQ tie (scaleSample s) unitsPerOne

/-- The conversion `quantize(b)` under a tie rule (41_quantizer.md rule R81; NaN by rule R85). -/
def quantize (tie : Config.QntTie) (b : Word) : Conversion where
  value :=
    match clampSample (unpackSample b) with
    | none => 0x0000
    | some s => BitVec.ofInt 16 (quantizedInteger tie s)
  clamp := clampIndicator (unpackSample b)
  nan := nanIndicator (unpackSample b)

/-- The effect of QNT_IN_WR under the block's tie rule: QNT_IN, QNT_OUT and QNT_STATUS change together
(41_quantizer.md rules R84, R86; 20_memory.md rule R46). -/
def State.convertSample (s : State) (wdata : Word) : State :=
  let q := quantize s.qntTie wdata
  (((s.writeQntIn wdata).writeQntOut q.value).writeQntStatus (s.qntStatus.accumulate q.clamp q.nan))

/-- QNT_IN_WR (41_quantizer.md rule R86). -/
def execQntInWr (wdata : Word) (s : State) : Host.Outcome State Fault Refusal :=
  .next ((s.convertSample wdata).complete 0)

/-- QNT_IN_RD (41_quantizer.md rule R87). -/
def execQntInRd (s : State) : Host.Outcome State Fault Refusal :=
  .next (s.complete (s.readReg .qntIn))

/-- QNT_OUT_RD (41_quantizer.md rule R88). -/
def execQntOutRd (s : State) : Host.Outcome State Fault Refusal :=
  .next (s.complete (s.readReg .qntOut))

/-- QNT_OUT_WR: write ignored (41_quantizer.md rule R89). -/
def execQntOutWr (_wdata : Word) (s : State) : Host.Outcome State Fault Refusal :=
  .next (s.complete 0)

/-- QNT_STATUS_RD (41_quantizer.md rule R90). -/
def execQntStatusRd (s : State) : Host.Outcome State Fault Refusal :=
  .next (s.complete (s.readReg .qntStatus))

/-- QNT_STATUS_WR: write one to clear (41_quantizer.md rule R91). -/
def execQntStatusWr (wdata : Word) (s : State) : Host.Outcome State Fault Refusal :=
  .next ((s.writeQntStatus (s.qntStatus.clear wdata)).complete 0)

end Sys2Proof.Machine
end

