-- ==== Sys2Proof/Machine/Dispatch.lean ====
section
/-! DEFINITION. The dispatch: one arm per operation of 30_encoding.md rule R68. -/

namespace Sys2Proof.Machine

/-- The effect of an operation on the state. -/
def exec (i : Instr) (s : State) : Host.Outcome State Fault Refusal :=
  match i with
  | .qntInRd => Sys2Proof.Machine.execQntInRd s
  | .qntOutRd => Sys2Proof.Machine.execQntOutRd s
  | .qntStatusRd => Sys2Proof.Machine.execQntStatusRd s
  | .crcCtrlRd => Sys2Proof.Machine.execCrcCtrlRd s
  | .crcDataRd => Sys2Proof.Machine.execCrcDataRd s
  | .crcStateRd => Sys2Proof.Machine.execCrcStateRd s
  | .crcResultRd => Sys2Proof.Machine.execCrcResultRd s
  | .crcDataWr8 b => Sys2Proof.Machine.execCrcDataWr8 b s
  | .crcDataWr16 h => Sys2Proof.Machine.execCrcDataWr16 h s
  | .qntInWr wdata => Sys2Proof.Machine.execQntInWr wdata s
  | .qntOutWr wdata => Sys2Proof.Machine.execQntOutWr wdata s
  | .qntStatusWr wdata => Sys2Proof.Machine.execQntStatusWr wdata s
  | .crcCtrlWr wdata => Sys2Proof.Machine.execCrcCtrlWr wdata s
  | .crcDataWr32 wdata => Sys2Proof.Machine.execCrcDataWr32 wdata s
  | .crcStateWr wdata => Sys2Proof.Machine.execCrcStateWr wdata s
  | .crcResultWr wdata => Sys2Proof.Machine.execCrcResultWr wdata s

end Sys2Proof.Machine
end

