-- ==== Sys2Proof/Machine/Step.lean ====
section
/-! DEFINITION. One step of the block: the oldest event at the port takes effect, whole (20_memory.md rules R45, R46). -/

namespace Sys2Proof.Machine

/-- A transaction: refused while the stored values are unspecified (70_reset_and_hazards.md rule R161), else decoded
(30_encoding.md rule R66) and either a bus error (60_exceptions.md rule R140) or the operation's effect. -/
def perform (t : Transaction) (s : State) : Host.Outcome State Fault Refusal :=
  match s.phase with
  | .unspecified => .refused .beforeReset
  | .operating =>
    match decode t with
    | .error cause => .next (s.busError cause)
    | .ok i => exec i s

/-- One step. With nothing at the port the block does nothing (DESIGN CHOICE, log 2: the model has no clock, rule
R166). -/
def step (s : State) : Host.Outcome State Fault Refusal :=
  match s.pending with
  | [] => .next s
  | .transaction t :: rest => perform t (s.arrive rest)
  | .reset _ :: rest => .next (s.arrive rest).applyReset
  | .powerLoss :: rest => .next (s.arrive rest).losePower

/-- `s` with the transaction of a table word next to arrive, at a block whose registers are specified, so that the very
next step performs it (log 1, log 2). -/
def State.withFetchWord (s : State) (nbits w : Nat) : State :=
  { s with pending := .transaction (Transaction.ofTableWord nbits w) :: s.pending, phase := .operating }

end Sys2Proof.Machine
end

