-- ==== Sys2Proof/Machine/HostProgram.lean ====
section
/-! DEFINITION. The host side of the port: a bus access as a transaction (00_scope.md rule R11), the host syntax and the
pseudo-instructions (30_encoding.md rules R72, R73). -/

namespace Sys2Proof.Machine

/-- The machine built with the given values of the five open parameters (00_scope.md rule R7: "A model takes each as an argument"). The step is the
same for all; `Sys2Proof.core` is the machine of CRCQ's own QNT_TIE. -/
def machineWith (p : Config.Parameters) : Host.Core where
  State := State
  Fault := Fault
  Refusal := Refusal
  step := step
  reset := State.resetWith p

/-- The size code of an access of n bytes, n in 1, 2, 4 (30_encoding.md rule R61). -/
def sizeCode (n : Nat) : Option (BitVec 2) :=
  if n = 1 then some 0b00 else if n = 2 then some 0b01 else if n = 4 then some 0b10 else none

/-- A host access of n bytes at a bus address: when the address is in the window of the given parameters, one CRCQ
transaction with OFF = addr - CRCQ_BASE; otherwise not CRCQ's (00_scope.md rules R7, R11; 20_memory.md rule R40).
DESIGN CHOICE, log 10: the value stands in WDATA as the host gave it. -/
def busAccess (p : Config.Parameters) (write : Bool) (addr n : Nat) (v : Word) : Option Transaction :=
  if p.crcqBase ≤ addr ∧ addr < p.crcqBase + 64 then
    (sizeCode n).map fun sz =>
      { w := write, sz := sz, off := BitVec.ofNat 6 (addr - p.crcqBase), wdata := if write then v else 0 }
  else none

/-- A host operation of 30_encoding.md rule R72, at a raw offset (`@0xNN`); a register name stands for its offset
(`Reg.offset`). The host variable of rd32 is the host's and takes the RDATA of the response. -/
inductive HostOp where
  | wr8 (off : BitVec 6) (imm : Byte)
  | wr16 (off : BitVec 6) (imm : Half)
  | wr32 (off : BitVec 6) (imm : Word)
  | rd32 (off : BitVec 6)
  deriving DecidableEq, Repr

/-- The transaction of a host operation (30_encoding.md rule R72). -/
def HostOp.transaction : HostOp → Transaction
  | .wr8 off imm => { w := true, sz := 0b00, off := off, wdata := imm.setWidth 32 }
  | .wr16 off imm => { w := true, sz := 0b01, off := off, wdata := imm.setWidth 32 }
  | .wr32 off imm => { w := true, sz := 0b10, off := off, wdata := imm }
  | .rd32 off => { w := false, sz := 0b10, off := off, wdata := 0 }

/-- The pseudo-instructions of 30_encoding.md rule R73. A destination variable is the host's own; `crcRestore` carries
the value of the variable it names. -/
inductive PseudoOp where
  | crcInit
  | crcB (b : Byte)
  | crcH (h : Half)
  | crcW (w : Word)
  | crcBytes (bs : List Byte)
  | crcGet
  | crcSave
  | crcRestore (v : Word)
  | crc32 (bs : List Byte)
  | qnt (s : Word)
  | qntGet
  | qntFlags
  | qntClr (m : Word)
  deriving DecidableEq, Repr

/-- The expansion of a pseudo-instruction (30_encoding.md rule R73). -/
def PseudoOp.expand : PseudoOp → List HostOp
  | .crcInit => [.wr32 Reg.crcCtrl.offset 0x00000001]
  | .crcB b => [.wr8 Reg.crcData.offset b]
  | .crcH h => [.wr16 Reg.crcData.offset h]
  | .crcW w => [.wr32 Reg.crcData.offset w]
  | .crcBytes bs => bs.map (.wr8 Reg.crcData.offset)
  | .crcGet => [.rd32 Reg.crcResult.offset]
  | .crcSave => [.rd32 Reg.crcState.offset]
  | .crcRestore v => [.wr32 Reg.crcState.offset v]
  | .crc32 bs => [.wr32 Reg.crcCtrl.offset 0x00000001] ++ bs.map (.wr8 Reg.crcData.offset) ++ [.rd32 Reg.crcResult.offset]
  | .qnt s => [.wr32 Reg.qntIn.offset s]
  | .qntGet => [.rd32 Reg.qntOut.offset]
  | .qntFlags => [.rd32 Reg.qntStatus.offset]
  | .qntClr m => [.wr32 Reg.qntStatus.offset m]

/-- The events a host program sends, in order. -/
def hostEvents (ops : List PseudoOp) : List BusEvent :=
  ops.flatMap fun op => op.expand.map fun h => .transaction h.transaction

/-- The bytes a feeding pseudo-instruction gives to the CRC register, in order (30_encoding.md rule R73); none for an
operation that feeds nothing. -/
def PseudoOp.fedBytes : PseudoOp → Option (List Byte)
  | .crcB b => some [b]
  | .crcH h => some (halfBytes h)
  | .crcW w => some (wordBytes w)
  | .crcBytes bs => some bs
  | .crcInit | .crcGet | .crcSave | .crcRestore _ | .crc32 _ | .qnt _ | .qntGet | .qntFlags | .qntClr _ => none

end Sys2Proof.Machine
end

