-- ==== Sys2Proof/Safety.lean ====
section
/-! DEFINITION. What counts as a safe run of CRCQ, and the terms claims are phrased in: the quantizer's rules in exact
rational arithmetic, runs of the port, and interleavings of hosts. No definition here is used by the machine. -/

namespace Sys2Proof.Machine

/-- No transaction arrives while the stored values are unspecified (70_reset_and_hazards.md rule R161): the platform
applies reset before the first transaction after a loss of power or clock. -/
def eventsSafe : Phase → List BusEvent → Bool
  | _, [] => true
  | .operating, .transaction _ :: rest => eventsSafe .operating rest
  | .unspecified, .transaction _ :: _ => false
  | _, .reset _ :: rest => eventsSafe .operating rest
  | _, .powerLoss :: rest => eventsSafe .unspecified rest

/-- `n` steps from `s` end in the next state `t`. -/
abbrev RunsTo (s : State) (n : Nat) (t : State) : Prop :=
  Host.Core.run Sys2Proof.core n s = Host.Outcome.next t

/-- The rule of each transaction applied in turn, each to the state the one before left (20_memory.md rule R49): `perform`
(decode, then the operation or the bus error) folded over the list, stopping at a refusal. -/
def performAll : List Transaction → State → Host.Outcome State Fault Refusal
  | [], s => .next s
  | t :: ts, s =>
    match perform t s with
    | .next s' => performAll ts s'
    | .fault r => .fault r
    | .refused r => .refused r

/-- The invariant of the quantizer: while the registers are specified, QNT_OUT is the conversion of QNT_IN
(10_state.md rules R25 and R33). -/
abbrev QntOutIsConversion (s : State) : Prop :=
  s.phase = .operating → s.qntOut = (quantize s.qntTie s.qntIn).value

/-- The operation `f` (a function of WDATA) has the 9-bit descriptor `d`, and at its offset and direction every size
but 4 bytes is ERR_SIZE: the "Encoding" and "Exceptions" lines of an operation rule of 41_quantizer.md or
42_crc.md whose register accepts 4 bytes only. -/
abbrev IsFourByteOperation (d : BitVec 9) (f : Word → Instr) : Prop :=
  (∀ v, decode (Transaction.ofDescriptor d v) = .ok (f v)) ∧
    ∀ t : Transaction, t.w = d.getLsbD 8 → t.off = d.extractLsb' 0 6 → t.sz ≠ 0b10 → decode t = .error .errSize

/-- The exact value of a finite binary32 pattern (41_quantizer.md rule R81): `(-1)^sign * f * 2^-149` when e = 0, else
`(-1)^sign * (2^23 + f) * 2^(e-150)`. -/
def sampleValue (b : Word) : ℚ :=
  (if signField b then -1 else 1) *
    (if expField b = 0 then (fracField b : ℚ) * 2 ^ (-149 : ℤ)
      else ((2 : ℚ) ^ 23 + (fracField b : ℚ)) * 2 ^ ((expField b : ℤ) - 150))

/-- `k = roundQ(p)` (41_quantizer.md rule R84): k is the nearest integer to p, and when p lies exactly halfway between
two integers the tie rule decides. -/
def IsRounded (tie : Config.QntTie) (p : ℚ) (k : ℤ) : Prop :=
  |p - k| ≤ 1 / 2 ∧
    (|p - k| = 1 / 2 →
      match tie with
      | .halfUp => p < k
      | .halfAway => |p| < |(k : ℚ)|
      | .halfEven => k % 2 = 0)

/-- The product of rule R81 for a clamped value s. -/
def scaledValue (s : ℚ) : ℚ :=
  if s < 0 then s * 32768 else s * 32767

/-- `q` is the triple that 41_quantizer.md rule R81 returns for the pattern `b`, line by line in exact rational
arithmetic. -/
def IsSpecConversion (tie : Config.QntTie) (b : Word) (q : Conversion) : Prop :=
  if expField b = 0xFF ∧ fracField b ≠ 0 then q = { value := 0x0000, clamp := false, nan := true }
  else if expField b = 0xFF then
    q.clamp = true ∧ q.nan = false ∧
      ∃ k : ℤ, IsRounded tie (scaledValue (if signField b then -1 else 1)) k ∧ q.value = BitVec.ofInt 16 k ∧
        q.value.toInt = k
  else
    (q.clamp = true ↔ sampleValue b > 1 ∨ sampleValue b < -1) ∧ q.nan = false ∧
      ∃ k : ℤ, IsRounded tie (scaledValue (min 1 (max (-1) (sampleValue b)))) k ∧ q.value = BitVec.ofInt 16 k ∧
        q.value.toInt = k

/-- The order of the numbers that non-NaN patterns denote (00_scope.md rule R10), -inf lowest and +inf highest; a NaN
is ordered with nothing. -/
def Sample.le : Sample → Sample → Prop
  | .nan, _ => False
  | .infinite true, .nan => False
  | .infinite true, _ => True
  | .infinite false, .infinite false => True
  | .infinite false, _ => False
  | .finite _, .nan => False
  | .finite _, .infinite negative => negative = false
  | .finite x, .finite y => x ≤ y

/-- `zs` is an interleaving of `xs` and `ys`: what the interconnect can make of two hosts' transactions
(20_memory.md rule R48; log 9). -/
inductive Interleaving : List Transaction → List Transaction → List Transaction → Prop where
  | nil : Interleaving [] [] []
  | left (t : Transaction) {xs ys zs : List Transaction} : Interleaving xs ys zs → Interleaving (t :: xs) ys (t :: zs)
  | right (t : Transaction) {xs ys zs : List Transaction} : Interleaving xs ys zs → Interleaving xs (t :: ys) (t :: zs)

/-- The transaction is addressed to the CRC unit's group of offsets, 0x10 to 0x1F (30_encoding.md rule R62). -/
abbrev addressesCrc (t : Transaction) : Prop :=
  t.off.toNat / 16 = 1

/-- The transaction is addressed to the quantizer's group of offsets, 0x00 to 0x0F (30_encoding.md rule R62). -/
abbrev addressesQnt (t : Transaction) : Prop :=
  t.off.toNat / 16 = 0

/-- The part of the registers that belongs to the quantizer: all but CRC_STATE (10_state.md rule R22). -/
abbrev Registers.SameQnt (r r' : Registers) : Prop :=
  r.qntIn = r'.qntIn ∧ r.qntOut = r'.qntOut ∧ r.qntStatus = r'.qntStatus

end Sys2Proof.Machine
end

