-- ==== Sys2Proof/Certificates/Slice0/Obligations.lean ====
section
/-! DEFINITION. The statements for the provers. Each docstring names the rules of spec/ it formalises, or says that it
rests on a choice of the model and names the log entry. -/

open Sys2Proof Sys2Proof.Machine

/-! ## Reset, power and the port -/

/-- 10_state.md rule R33: the reset value of every register; after reset no value is unspecified; the reset QNT_OUT is
the conversion of the reset QNT_IN. -/
def Obligations.ResetValuesOfAllState : Prop :=
  State.reset.crcState = 0xFFFFFFFF ∧ State.reset.qntIn = 0x00000000 ∧ State.reset.qntOut = 0x0000 ∧
    State.reset.qntStatus.clamp = false ∧ State.reset.qntStatus.nan = false ∧ State.reset.phase = .operating ∧
    State.reset.qntOut = (quantize State.reset.qntTie State.reset.qntIn).value

/-- 70_reset_and_hazards.md rule R160: the reset event sets every register to its reset value from any state, whatever
transaction it overlaps, and the overlapped transaction has no effect. That it gets no response at all is the model's
choice (DESIGN CHOICE, log 3): the rule says "no defined response". That reset leaves the queue, the transcript and the
tie rule is the model's too (log 2, log 5). -/
def Obligations.ResetEventSetsEveryRegister : Prop :=
  ∀ (s : State) (overlapped : Option Transaction) (rest : List BusEvent),
    s.pending = .reset overlapped :: rest →
      step s = .next
        { crcState := 0xFFFFFFFF, qntIn := 0x00000000, qntOut := 0x0000,
          qntStatus := { clamp := false, nan := false },
          pending := rest, responses := s.responses, phase := .operating, qntTie := s.qntTie }

/-- 70_reset_and_hazards.md rule R161: a run starts at the post-reset state; after loss of power or clock nothing is
specified until the next reset, and an access before it is refused. -/
def Obligations.AccessBeforeResetRefused : Prop :=
  State.reset.phase = .operating ∧
    (∀ (s : State) (rest : List BusEvent), s.pending = .powerLoss :: rest →
      ∃ s', step s = .next s' ∧ s'.pending = rest ∧ s'.phase = .unspecified) ∧
    ∀ (s : State) (t : Transaction) (rest : List BusEvent),
      s.pending = .transaction t :: rest → s.phase = .unspecified → step s = .refused .beforeReset

/-- The block performs every queue of events, to the end, exactly when no transaction arrives before a reset that
follows a loss of power (derived from rules R161 and R166; the queue is the model's own, log 2). -/
def Obligations.SafeEventsRunToTheEnd : Prop :=
  ∀ s : State,
    eventsSafe s.phase s.pending = true ↔ ∃ t, RunsTo s s.pending.length t ∧ t.pending = []

/-- A step performs the decoded operation: with a transaction next at the port and the registers specified, step is
exec of the decoded operation once the transaction has left the queue (rules R45 and R66; the queue is log 2). -/
def Obligations.StepRunsDecodedOperation : Prop :=
  ∀ (s : State) (t : Transaction) (rest : List BusEvent) (i : Instr),
    s.pending = .transaction t :: rest → s.phase = .operating → decode t = .ok i →
      step s = exec i { s with pending := rest }

/-- 60_exceptions.md rule R140: a transaction that raises a bus error completes with RESP = ERR and RDATA = 0, writes no
state, leaves no record but its own response, and the next transaction is decoded normally on the unchanged state. -/
def Obligations.BusErrorWritesNoState : Prop :=
  ∀ (s : State) (t : Transaction) (rest : List BusEvent) (c : BusErrorCause),
    s.pending = .transaction t :: rest → s.phase = .operating → decode t = .error c →
      (Response.error c).resp = .err ∧ (Response.error c).rdata = 0 ∧
      step s = .next { s with pending := rest, responses := s.responses ++ [.error c] } ∧
      ∀ (t' : Transaction) (rest' : List BusEvent) (i : Instr), rest = .transaction t' :: rest' → decode t' = .ok i →
        step { s with pending := rest, responses := s.responses ++ [.error c] } =
          exec i { s with pending := rest', responses := s.responses ++ [.error c] }

/-- 60_exceptions.md rule R141, the bus side: the three causes have their codes, and the bus carries the same response
for all of them. -/
def Obligations.CauseIsNotCarriedByTheBus : Prop :=
  BusErrorCause.errSize.code = 1 ∧ BusErrorCause.errAlign.code = 2 ∧ BusErrorCause.errUnmapped.code = 3 ∧
    ∀ c c' : BusErrorCause,
      (Response.error c).resp = (Response.error c').resp ∧ (Response.error c).rdata = (Response.error c').rdata

/-- Every transaction gets exactly one response, and it is OK exactly when the transaction is well formed; an ill-formed
one leaves every register as it was (rules R45, R140, R143, R166). -/
def Obligations.EveryTransactionGetsOneResponse : Prop :=
  ∀ (s : State) (t : Transaction) (rest : List BusEvent),
    s.pending = .transaction t :: rest → s.phase = .operating →
      ∃ (s' : State) (r : Response), step s = .next s' ∧ s'.pending = rest ∧ s'.phase = .operating ∧
        s'.responses = s.responses ++ [r] ∧ (r.resp = .ok ↔ t.wf = true) ∧
        (t.wf = false → s'.toRegisters = s.toRegisters) ∧ (t.w = true → r.rdata = 0)

/-- 20_memory.md rule R49: the run over t1 .. tn ends as the rule of t1, then of t2, and so on to tn, each applied to the
state the one before left (`performAll`, perform folded over the list), whatever waits behind them; and with the registers
specified a rule is the decoded operation or the bus error. The queue is the model's own (log 2). -/
def Obligations.TransactionsComposeInArrivalOrder : Prop :=
  (∀ (s : State) (ts : List Transaction) (rest : List BusEvent), s.pending = ts.map .transaction ++ rest →
      Host.Core.run Sys2Proof.core ts.length s = performAll ts { s with pending := rest } ∧
      (s.phase = .operating → ∃ t, performAll ts { s with pending := rest } = .next t ∧ t.pending = rest)) ∧
    ∀ (s : State) (t : Transaction), s.phase = .operating →
      (∀ i, decode t = .ok i → perform t s = exec i s) ∧
      ∀ c, decode t = .error c → perform t s = .next { s with responses := s.responses ++ [.error c] }

/-- 00_scope.md rule R7: the machine takes the five open parameters as an argument; the post-reset state has the registers of
rule R33 and the given QNT_TIE, and two sets of parameters with the same QNT_TIE give the same machine; CRCQ's own value
is HALF_UP. Keeping QNT_TIE in State is the model's choice (log 5). -/
def Obligations.MachineTakesTheParameters : Prop :=
  (∀ p : Config.Parameters,
      (State.resetWith p).toRegisters = State.reset.toRegisters ∧ (State.resetWith p).qntTie = p.qntTie) ∧
    (∀ p p' : Config.Parameters, p.qntTie = p'.qntTie → machineWith p = machineWith p') ∧
    ∀ p : Config.Parameters, p.qntTie = .halfUp → machineWith p = Sys2Proof.core

/-- 00_scope.md rule R7 on QNT_TIE, "whose only effect is stated in 41_quantizer.md rule R84": no step changes it, no
operation but QNT_IN_WR depends on it, and QNT_IN_WR depends on it only through QNT_OUT. The field is log 5. -/
def Obligations.QntTieActsOnlyOnConversions : Prop :=
  (∀ s s' : State, step s = .next s' → s'.qntTie = s.qntTie) ∧
    (∀ (i : Instr) (s t : State) (tie : Config.QntTie), (∀ v, i ≠ .qntInWr v) → exec i s = .next t →
      exec i { s with qntTie := tie } = .next { t with qntTie := tie }) ∧
    ∀ (v : Word) (s t : State) (tie : Config.QntTie), exec (.qntInWr v) s = .next t →
      exec (.qntInWr v) { s with qntTie := tie } =
        .next { t with qntTie := tie, qntOut := (quantize tie v).value }

/-! ## Decoding and encoding -/

/-- 30_encoding.md rule R66 with the priority of 60_exceptions.md rule R142: the first check that fails decides, and a
transaction that passes all four selects the operation of its descriptor. The checks are those of WellFormed.lean,
read from rules R44, R61, R63 and R65. -/
def Obligations.DecodeChecksInSpecOrder : Prop :=
  ∀ t : Transaction,
    (t.sizeDefined = false → decode t = .error .errSize) ∧
    (t.sizeDefined = true → t.aligned = false → decode t = .error .errAlign) ∧
    (t.sizeDefined = true → t.aligned = true → t.mapped = false → decode t = .error .errUnmapped) ∧
    (t.sizeDefined = true → t.aligned = true → t.mapped = true → t.sizePermitted = false →
      decode t = .error .errSize) ∧
    (t.wf = true → ∃ i, decode t = .ok i ∧ i.descriptor = t.descriptor)

/-- 30_encoding.md rule R68 with the operands of rule R67: each of the 16 descriptors of the table, with any write data,
decodes to its operation; and of the other 496 descriptors 128, 288, 54 and 26 fail the four checks in their order. -/
def Obligations.OpcodeTableDecodes : Prop :=
  let all := (List.range 512).map fun d => Transaction.ofDescriptor (BitVec.ofNat 9 d) 0
  ((all.filter fun t => t.wf).length = 16 ∧
    (all.filter fun t => !t.sizeDefined).length = 128 ∧
    (all.filter fun t => t.sizeDefined && !t.aligned).length = 288 ∧
    (all.filter fun t => t.sizeDefined && t.aligned && !t.mapped).length = 54 ∧
    (all.filter fun t => t.sizeDefined && t.aligned && t.mapped && !t.sizePermitted).length = 26) ∧
  ∀ v : Word,
    decode (Transaction.ofDescriptor 0b010000000 v) = .ok .qntInRd ∧
    decode (Transaction.ofDescriptor 0b010000100 v) = .ok .qntOutRd ∧
    decode (Transaction.ofDescriptor 0b010001000 v) = .ok .qntStatusRd ∧
    decode (Transaction.ofDescriptor 0b010010000 v) = .ok .crcCtrlRd ∧
    decode (Transaction.ofDescriptor 0b010010100 v) = .ok .crcDataRd ∧
    decode (Transaction.ofDescriptor 0b010011000 v) = .ok .crcStateRd ∧
    decode (Transaction.ofDescriptor 0b010011100 v) = .ok .crcResultRd ∧
    decode (Transaction.ofDescriptor 0b100010100 v) = .ok (.crcDataWr8 (v.extractLsb' 0 8)) ∧
    decode (Transaction.ofDescriptor 0b101010100 v) = .ok (.crcDataWr16 (v.extractLsb' 0 16)) ∧
    decode (Transaction.ofDescriptor 0b110000000 v) = .ok (.qntInWr v) ∧
    decode (Transaction.ofDescriptor 0b110000100 v) = .ok (.qntOutWr v) ∧
    decode (Transaction.ofDescriptor 0b110001000 v) = .ok (.qntStatusWr v) ∧
    decode (Transaction.ofDescriptor 0b110010000 v) = .ok (.crcCtrlWr v) ∧
    decode (Transaction.ofDescriptor 0b110010100 v) = .ok (.crcDataWr32 v) ∧
    decode (Transaction.ofDescriptor 0b110011000 v) = .ok (.crcStateWr v) ∧
    decode (Transaction.ofDescriptor 0b110011100 v) = .ok (.crcResultWr v)

/-- A few words of the opcode table, in the table's numbering, decode to their operations (log 1 for the place of
WDATA); the host's table reader and the fetch agree. -/
def Obligations.TableWordsDecode : Prop :=
  decodeTableWord 16 0x080 = some .qntInRd ∧ decodeTableWord 16 0x09C = some .crcResultRd ∧
    decodeTableWord 16 0x114 = some (.crcDataWr8 0) ∧ decodeTableWord 48 0x12345678_0180 = some (.qntInWr 0x12345678) ∧
    decodeTableWord 16 0x0C0 = none ∧
    ∀ (s : State) (nbits w : Nat) (i : Instr), decodeTableWord nbits w = some i →
      step (s.withFetchWord nbits w) = exec i { s with phase := .operating }

/-- Decode and encode agree: every operation is the decoding of its encoding, and every transaction the decoder accepts
has the descriptor of the operation's encoding and, in a write, its operand in the lanes the size covers (rules R60,
R61, R66, R67, R68). -/
def Obligations.DecodeAndEncodeAgree : Prop :=
  (∀ i : Instr, (encode i).wf = true ∧ decode (encode i) = .ok i) ∧
    ∀ (t : Transaction) (i : Instr), decode t = .ok i →
      (encode i).descriptor = t.descriptor ∧
      ∃ n, nbytes t.sz = some n ∧
        (t.w = true → ∀ k < 8 * n, (encode i).wdata.getLsbD k = t.wdata.getLsbD k) ∧
        (t.w = true → ∀ k, 8 * n ≤ k → (encode i).wdata.getLsbD k = false)

/-! ## The operations of the quantizer -/

/-- 41_quantizer.md rule R86, QNT_IN_WR, under whatever tie rule the block was built with (00_scope.md rule R7). -/
def Obligations.QntInWriteConverts : Prop :=
  IsFourByteOperation 0x180 .qntInWr ∧
    ∀ (s : State) (v : Word),
      exec (.qntInWr v) s = .next
        { s with
          qntIn := v
          qntOut := (quantize s.qntTie v).value
          qntStatus :=
            { clamp := s.qntStatus.clamp || (quantize s.qntTie v).clamp
              nan := s.qntStatus.nan || (quantize s.qntTie v).nan }
          responses := s.responses ++ [.ok 0] }

/-- 41_quantizer.md rule R87, QNT_IN_RD. -/
def Obligations.QntInReadReturnsLastSample : Prop :=
  IsFourByteOperation 0x080 (fun _ => .qntInRd) ∧
    (∀ s : State, exec .qntInRd s = .next { s with responses := s.responses ++ [.ok s.qntIn] }) ∧
    State.reset.qntIn = 0x00000000

/-- 41_quantizer.md rule R88, QNT_OUT_RD: the read data is the sign extension of the 16 stored bits. -/
def Obligations.QntOutReadSignExtends : Prop :=
  IsFourByteOperation 0x084 (fun _ => .qntOutRd) ∧
    (∀ s : State, ∃ v : Word, exec .qntOutRd s = .next { s with responses := s.responses ++ [.ok v] } ∧
      v.toInt = s.qntOut.toInt ∧ v.extractLsb' 0 16 = s.qntOut) ∧
    exec .qntOutRd State.reset = .next { State.reset with responses := [.ok 0x00000000] }

/-- 41_quantizer.md rule R89, QNT_OUT_WR: write ignored; the only operation that writes QNT_OUT is QNT_IN_WR. -/
def Obligations.QntOutWriteIgnored : Prop :=
  IsFourByteOperation 0x184 .qntOutWr ∧
    (∀ (s : State) (v : Word), exec (.qntOutWr v) s = .next { s with responses := s.responses ++ [.ok 0] }) ∧
    ∀ (i : Instr) (s t : State), exec i s = .next t → t.qntOut ≠ s.qntOut → ∃ v, i = .qntInWr v

/-- 41_quantizer.md rule R90, QNT_STATUS_RD: CLAMP in bit 0, NAN in bit 1, bits 31:2 zero; the read clears nothing. -/
def Obligations.QntStatusReadReturnsFlags : Prop :=
  IsFourByteOperation 0x088 (fun _ => .qntStatusRd) ∧
    (∀ s : State, ∃ v : Word, exec .qntStatusRd s = .next { s with responses := s.responses ++ [.ok v] } ∧
      v.getLsbD 0 = s.qntStatus.clamp ∧ v.getLsbD 1 = s.qntStatus.nan ∧ ∀ k, 2 ≤ k → v.getLsbD k = false) ∧
    exec .qntStatusRd State.reset = .next { State.reset with responses := [.ok 0x00000000] }

/-- 41_quantizer.md rule R91, QNT_STATUS_WR: write one to clear. -/
def Obligations.QntStatusWriteClearsOnes : Prop :=
  IsFourByteOperation 0x188 .qntStatusWr ∧
    ∀ (s : State) (v : Word),
      exec (.qntStatusWr v) s = .next
        { s with
          qntStatus :=
            { clamp := s.qntStatus.clamp && !v.getLsbD 0
              nan := s.qntStatus.nan && !v.getLsbD 1 }
          responses := s.responses ++ [.ok 0] }

/-! ## The conversion -/

/-- 41_quantizer.md rule R81: under every tie rule the conversion is the one the rule computes in exact rational
arithmetic. -/
def Obligations.QuantizeIsExactRationalRule : Prop :=
  ∀ (tie : Config.QntTie) (b : Word), IsSpecConversion tie b (quantize tie b)

/-- The rational reading of HALF_UP in 41_quantizer.md rule R84: roundQ(p) = floor(p + 1/2). -/
def Obligations.HalfUpIsFloorOfPlusHalf : Prop :=
  ∀ (b : Word) (s : Int), clampSample (unpackSample b) = some s →
    (quantize .halfUp b).value.toInt = ⌊scaledValue ((s : ℚ) / 2 ^ 149) + 1 / 2⌋

/-- 41_quantizer.md rule R84, the derived part: the tie rule matters only for s = -(2j+1) * 2^-16 with j < 32768; there
HALF_UP gives -j, HALF_AWAY gives -(j+1) and HALF_EVEN the even one of the two; every such s is the value of a pattern;
0.5 gives 0x4000 under all three. -/
def Obligations.TieRuleMattersOnlyOnNegativeOddHalves : Prop :=
  (∀ (b : Word) (j : Nat), expField b ≠ 0xFF → j < 32768 → sampleValue b = -(2 * j + 1) / 2 ^ 16 →
      (quantize .halfUp b).value = BitVec.ofInt 16 (-j) ∧
      (quantize .halfAway b).value = BitVec.ofInt 16 (-(j + 1)) ∧
      (quantize .halfEven b).value = BitVec.ofInt 16 (if j % 2 = 0 then -j else -(j + 1))) ∧
    (∀ (b : Word) (tie tie' : Config.QntTie), quantize tie b ≠ quantize tie' b →
      expField b ≠ 0xFF ∧ ∃ j : Nat, j < 32768 ∧ sampleValue b = -(2 * j + 1) / 2 ^ 16) ∧
    (∀ j : Nat, j < 32768 → ∃ b : Word, expField b ≠ 0xFF ∧ sampleValue b = -(2 * j + 1) / 2 ^ 16) ∧
    ∀ tie, (quantize tie 0x3F000000).value = 0x4000

/-- 41_quantizer.md rule R85: every NaN pattern gives 0x0000 and NAN, never CLAMP, and QNT_IN_WR ORs it in. -/
def Obligations.NanGivesZeroAndNanFlag : Prop :=
  ∀ (tie : Config.QntTie) (b : Word),
    (0x7F800001 ≤ b.toNat ∧ b.toNat ≤ 0x7FFFFFFF) ∨ (0xFF800001 ≤ b.toNat ∧ b.toNat ≤ 0xFFFFFFFF) →
      quantize tie b = { value := 0x0000, clamp := false, nan := true } ∧
      ∀ s : State, exec (.qntInWr b) s = .next
        { s with
          qntIn := b, qntOut := 0x0000, qntStatus := { clamp := s.qntStatus.clamp, nan := true }
          responses := s.responses ++ [.ok 0] }

/-- 41_quantizer.md rules R82 and R83 on the bit patterns: CLAMP is indicated exactly for the patterns above 1.0 in
magnitude up to the infinities, and those give 32767 or -32768 by their sign, under every tie rule. -/
def Obligations.ClampExactlyBeyondOne : Prop :=
  ∀ (tie : Config.QntTie) (b : Word),
    ((quantize tie b).clamp = true ↔ 0x3F800000 < b.toNat % 2 ^ 31 ∧ b.toNat % 2 ^ 31 ≤ 0x7F800000) ∧
    ((quantize tie b).clamp = true →
      (quantize tie b).nan = false ∧ (quantize tie b).value = if b.toNat < 2 ^ 31 then 0x7FFF else 0x8000)

/-- 41_quantizer.md rule R92: the product and the result stay in range, so int16(k) never wraps. -/
def Obligations.ConversionNeverWraps : Prop :=
  ∀ (tie : Config.QntTie) (b : Word) (s : Int), clampSample (unpackSample b) = some s →
    -unitsPerOne ≤ s ∧ s ≤ unitsPerOne ∧
    (quantize tie b).value.toInt = quantizedInteger tie s ∧
    (s < 0 → -32768 * unitsPerOne ≤ scaleSample s ∧ scaleSample s < 0 ∧
      -32768 ≤ quantizedInteger tie s ∧ quantizedInteger tie s ≤ 0) ∧
    (0 ≤ s → 0 ≤ scaleSample s ∧ scaleSample s ≤ 32767 * unitsPerOne ∧
      0 ≤ quantizedInteger tie s ∧ quantizedInteger tie s ≤ 32767)

/-- 41_quantizer.md rule R93: the conversion is non-decreasing over non-NaN inputs, under every tie rule; its fixed
points; and it is not odd-symmetric. -/
def Obligations.ConversionIsMonotone : Prop :=
  (∀ (tie : Config.QntTie) (b b' : Word), (unpackSample b).le (unpackSample b') →
      (quantize tie b).value.toInt ≤ (quantize tie b').value.toInt) ∧
    ∀ tie : Config.QntTie,
      (quantize tie 0x3F800000).value = 0x7FFF ∧ (quantize tie 0xBF800000).value = 0x8000 ∧
      (quantize tie 0x00000000).value = 0x0000 ∧ (quantize tie 0x80000000).value = 0x0000 ∧
      (quantize tie 0x3F400000).value = 0x5FFF ∧ (quantize tie 0xBF400000).value = 0xA000 ∧
      (quantize tie 0x3F000000).value.toInt = 16384 ∧ (quantize tie 0xBF000000).value.toInt = -16384

/-- 41_quantizer.md rule R94, what an implementation may use: the exact product of a clamped sample has at most 39
significant bits (so binary64 holds it), and the example on which a binary32 product would go wrong gives 0x7FFF under
every tie rule. -/
def Obligations.ProductFitsThirtyNineBits : Prop :=
  (∀ (b : Word) (s : Int), clampSample (unpackSample b) = some s →
      ∃ (m : Int) (e : Nat), m.natAbs < 2 ^ 39 ∧ scaleSample s = m * 2 ^ e) ∧
    ∀ tie : Config.QntTie, (quantize tie 0x3F7FFF00).value = 0x7FFF

/-- 41_quantizer.md rule R95: zeros and subnormals of either sign give 0x0000 and no flag, under every tie rule. -/
def Obligations.ZerosAndSubnormalsGiveZero : Prop :=
  ∀ (tie : Config.QntTie) (b : Word), b.toNat % 2 ^ 31 < 2 ^ 23 →
    quantize tie b = { value := 0x0000, clamp := false, nan := false }

/-! ## The operations of the CRC unit -/

/-- 42_crc.md rule R111: the byte step and its iteration over a byte string. -/
def Obligations.CrcByteStepIsSpecLoop : Prop :=
  (∀ (c : Word) (b : Byte),
      crcByte c b =
        (fun x : Word => if x &&& 1 = 1 then (x >>> 1) ^^^ 0xEDB88320 else x >>> 1)^[8] (c ^^^ b.zeroExtend 32)) ∧
    (∀ c : Word, crcBytes c [] = c) ∧
    ∀ (c : Word) (b : Byte) (bs : List Byte), crcBytes c (b :: bs) = crcBytes (crcByte c b) bs

/-- 42_crc.md rule R112, CRC_CTRL_WR: bit 0 is INIT. -/
def Obligations.CrcCtrlWriteInitializes : Prop :=
  IsFourByteOperation 0x190 .crcCtrlWr ∧
    ∀ (s : State) (v : Word),
      (v.getLsbD 0 = true → exec (.crcCtrlWr v) s = .next
        { s with crcState := 0xFFFFFFFF, responses := s.responses ++ [.ok 0] }) ∧
      (v.getLsbD 0 = false → exec (.crcCtrlWr v) s = .next { s with responses := s.responses ++ [.ok 0] })

/-- 42_crc.md rule R113, CRC_CTRL_RD: read as zero. -/
def Obligations.CrcCtrlReadsZero : Prop :=
  IsFourByteOperation 0x090 (fun _ => .crcCtrlRd) ∧
    ∀ s : State, exec .crcCtrlRd s = .next { s with responses := s.responses ++ [.ok 0x00000000] }

/-- 42_crc.md rule R114, CRC_DATA_WR8: one byte step; a zero byte still changes the register unless it is 0. The
1-byte write is legal only at CRC_DATA. That it is ERR_SIZE at every other mapped aligned offset, but ERR_ALIGN or
ERR_UNMAPPED at the other offsets, is the model's reading (DEDUCED, log 11): rule R114 says "elsewhere decoding raises
ERR_SIZE", and the checks have the order of 30_encoding.md rule R66 and 60_exceptions.md rule R142. -/
def Obligations.CrcDataWrite8FeedsOneByte : Prop :=
  (∀ v : Word, decode (Transaction.ofDescriptor 0x114 v) = .ok (.crcDataWr8 (v.extractLsb' 0 8))) ∧
    (∀ t : Transaction, t.w = true → t.sz = 0b00 → t.off ≠ 0x14 →
      (t.aligned = true → t.mapped = true → decode t = .error .errSize) ∧
      (t.aligned = false → decode t = .error .errAlign) ∧
      (t.aligned = true → t.mapped = false → decode t = .error .errUnmapped)) ∧
    (∀ (s : State) (b : Byte),
      exec (.crcDataWr8 b) s = .next
        { s with crcState := crcByte s.crcState b, responses := s.responses ++ [.ok 0] }) ∧
    (∀ c : Word, crcByte c 0x00 = c ↔ c = 0) ∧ crcByte 0xFFFFFFFF 0xFF = 0x00FFFFFF ∧
    crcByte 0xFFFFFFFF 0x61 = 0x174841BC

/-- 42_crc.md rule R115, CRC_DATA_WR16: two byte steps, low byte first, as one transaction; it leaves CRC_STATE as two
1-byte writes do. -/
def Obligations.CrcDataWrite16FeedsLowByteFirst : Prop :=
  (∀ v : Word, decode (Transaction.ofDescriptor 0x154 v) = .ok (.crcDataWr16 (v.extractLsb' 0 16))) ∧
    ∀ (s : State) (h : Half),
      exec (.crcDataWr16 h) s = .next
        { s with
          crcState := crcByte (crcByte s.crcState (h.extractLsb' 0 8)) (h.extractLsb' 8 8)
          responses := s.responses ++ [.ok 0] } ∧
      ∃ m t, exec (.crcDataWr8 (h.extractLsb' 0 8)) s = .next m ∧ exec (.crcDataWr8 (h.extractLsb' 8 8)) m = .next t ∧
        t.crcState = crcByte (crcByte s.crcState (h.extractLsb' 0 8)) (h.extractLsb' 8 8)

/-- 42_crc.md rule R116, CRC_DATA_WR32: four byte steps, low byte first, as one transaction; at CRC_DATA only the
reserved size is an error. -/
def Obligations.CrcDataWrite32FeedsLowByteFirst : Prop :=
  (∀ v : Word, decode (Transaction.ofDescriptor 0x194 v) = .ok (.crcDataWr32 v)) ∧
    (∀ t : Transaction, t.w = true → t.off = 0x14 → (decode t = .error .errSize ↔ t.sz = 0b11)) ∧
    (∀ (s : State) (v : Word),
      exec (.crcDataWr32 v) s = .next
        { s with
          crcState :=
            crcByte (crcByte (crcByte (crcByte s.crcState (v.extractLsb' 0 8)) (v.extractLsb' 8 8))
              (v.extractLsb' 16 8)) (v.extractLsb' 24 8)
          responses := s.responses ++ [.ok 0] }) ∧
    crcBytes 0xFFFFFFFF [0xFF, 0xFF, 0xFF, 0xFF] = 0x00000000 ∧
    crcBytes 0xFFFFFFFF [0x49, 0x45, 0x4E, 0x44] = 0x51BD9F7D

/-- 42_crc.md rule R117, CRC_STATE_WR: load the raw register; writing 0xFFFFFFFF equals INIT. -/
def Obligations.CrcStateWriteLoads : Prop :=
  IsFourByteOperation 0x198 .crcStateWr ∧
    (∀ (s : State) (v : Word),
      exec (.crcStateWr v) s = .next { s with crcState := v, responses := s.responses ++ [.ok 0] }) ∧
    ∀ s : State, exec (.crcStateWr 0xFFFFFFFF) s = exec (.crcCtrlWr 0x00000001) s

/-- 42_crc.md rule R121, CRC_STATE_RD: the raw register, with no final XOR. -/
def Obligations.CrcStateReadReturnsRaw : Prop :=
  IsFourByteOperation 0x098 (fun _ => .crcStateRd) ∧
    (∀ s : State, exec .crcStateRd s = .next { s with responses := s.responses ++ [.ok s.crcState] }) ∧
    State.reset.crcState = 0xFFFFFFFF

/-- 42_crc.md rule R118, CRC_RESULT_RD: the register XOR 0xFFFFFFFF, its bitwise complement; the read changes
nothing. -/
def Obligations.CrcResultReadReturnsComplement : Prop :=
  IsFourByteOperation 0x09C (fun _ => .crcResultRd) ∧
    (∀ s : State, exec .crcResultRd s = .next
      { s with responses := s.responses ++ [.ok (s.crcState ^^^ 0xFFFFFFFF)] }) ∧
    (∀ c : Word, c ^^^ 0xFFFFFFFF = ~~~c) ∧
    exec .crcResultRd State.reset = .next { State.reset with responses := [.ok 0x00000000] }

/-- 42_crc.md rule R119, CRC_DATA_RD: read as zero; narrow reads are errors. -/
def Obligations.CrcDataReadsZero : Prop :=
  IsFourByteOperation 0x094 (fun _ => .crcDataRd) ∧
    ∀ s : State, exec .crcDataRd s = .next { s with responses := s.responses ++ [.ok 0x00000000] }

/-- 42_crc.md rule R120, CRC_RESULT_WR: write ignored. -/
def Obligations.CrcResultWriteIgnored : Prop :=
  IsFourByteOperation 0x19C .crcResultWr ∧
    ∀ (s : State) (v : Word), exec (.crcResultWr v) s = .next { s with responses := s.responses ++ [.ok 0] }

/-! ## Laws of the CRC -/

/-- 42_crc.md rule R122: the table form equals the bit loop, for every register value and byte; selected entries of the
table. -/
def Obligations.CrcTableFormEqualsBitLoop : Prop :=
  (∀ (c : Word) (b : Byte),
      crcByte c b = crcTableEntry (((c ^^^ b.setWidth 32) &&& 0xFF).setWidth 8) ^^^ (c >>> 8)) ∧
    crcTableEntry 0 = 0x00000000 ∧ crcTableEntry 1 = 0x77073096 ∧ crcTableEntry 2 = 0xEE0E612C ∧
    crcTableEntry 128 = 0xEDB88320 ∧ crcTableEntry 255 = 0x2D02EF8D

/-- 42_crc.md rule R125: concatenation, linearity over GF(2), and the residue. -/
def Obligations.CrcConcatenationLinearityResidue : Prop :=
  (∀ (c : Word) (a b : List Byte), crcBytes c (a ++ b) = crcBytes (crcBytes c a) b) ∧
    (∀ (c1 c2 : Word) (b1 b2 : Byte), crcByte (c1 ^^^ c2) (b1 ^^^ b2) = crcByte c1 b1 ^^^ crcByte c2 b2) ∧
    (∀ n : Nat, crcBytes 0 (List.replicate n 0) = 0) ∧
    ∀ m : List Byte,
      crcBytes 0xFFFFFFFF
        (m ++ [(crc32 m).extractLsb' 0 8, (crc32 m).extractLsb' 8 8, (crc32 m).extractLsb' 16 8,
          (crc32 m).extractLsb' 24 8]) = 0xDEBB20E3

/-- 42_crc.md rule R123: after crc.init and any mix of 1-, 2- and 4-byte feeds, CRC_RESULT reads crc32 of the bytes fed
and CRC_STATE the raw register; the check value of "123456789". -/
def Obligations.ChecksumOfAnyFeed : Prop :=
  (∀ (s : State) (feeds : List PseudoOp) (chunks : List (List Byte)),
      s.phase = .operating → feeds.map PseudoOp.fedBytes = chunks.map some →
      s.pending = hostEvents ([.crcInit] ++ feeds ++ [.crcGet, .crcSave]) →
      ∃ t, RunsTo s s.pending.length t ∧ t.pending = [] ∧ t.crcState = crcBytes 0xFFFFFFFF chunks.flatten ∧
        ∃ acks : List Response, (∀ r ∈ acks, r = .ok 0) ∧
          t.responses = s.responses ++ acks ++
            [.ok (crcBytes 0xFFFFFFFF chunks.flatten ^^^ 0xFFFFFFFF), .ok (crcBytes 0xFFFFFFFF chunks.flatten)]) ∧
    crc32 [0x31, 0x32, 0x33, 0x34, 0x35, 0x36, 0x37, 0x38, 0x39] = 0xCBF43926 ∧
    crcBytes 0xFFFFFFFF [0x31, 0x32, 0x33, 0x34, 0x35, 0x36, 0x37, 0x38, 0x39] = 0x340BC6D9

/-- A checksum stream survives a context switch (70_reset_and_hazards.md rule R165; 42_crc.md rules R117, R125): save
CRC_STATE after the first part, let any transactions run, write the saved value back, and the rest of the stream ends
at the checksum of the whole. -/
def Obligations.SavedStreamResumesExactly : Prop :=
  ∀ (s : State) (a b : List Byte) (other : List Transaction),
    s.phase = .operating →
    s.pending = hostEvents [.crcInit, .crcBytes a, .crcSave] ++ other.map .transaction ++
      hostEvents [.crcRestore (crcBytes 0xFFFFFFFF a), .crcBytes b, .crcGet] →
    ∃ m t, RunsTo s (a.length + 2) m ∧ m.responses.getLast? = some (.ok (crcBytes 0xFFFFFFFF a)) ∧
      RunsTo s s.pending.length t ∧ t.pending = [] ∧ t.responses.getLast? = some (.ok (crc32 (a ++ b)))

/-! ## Whole-machine rules -/

/-- 00_scope.md rule R2: no operation of one unit writes or reads any state of the other. Two states of one block have one
QNT_TIE (00_scope.md rule R7; the field is log 5), which the last clause takes as a premise because a conversion reads it. -/
def Obligations.UnitsShareNoState : Prop :=
  (∀ (i : Instr) (s s' : State), i.functionalUnit = .crc → exec i s = .next s' →
      s'.toRegisters.SameQnt s.toRegisters) ∧
    (∀ (i : Instr) (s s' : State), i.functionalUnit = .qnt → exec i s = .next s' → s'.crcState = s.crcState) ∧
    (∀ (i : Instr) (s1 s2 : State), i.functionalUnit = .crc → s1.crcState = s2.crcState →
      ∃ (t1 t2 : State) (r : Response), exec i s1 = .next t1 ∧ exec i s2 = .next t2 ∧ t1.crcState = t2.crcState ∧
        t1.responses = s1.responses ++ [r] ∧ t2.responses = s2.responses ++ [r]) ∧
    ∀ (i : Instr) (s1 s2 : State), i.functionalUnit = .qnt → s1.qntTie = s2.qntTie →
      s1.toRegisters.SameQnt s2.toRegisters →
      ∃ (t1 t2 : State) (r : Response), exec i s1 = .next t1 ∧ exec i s2 = .next t2 ∧
        t1.toRegisters.SameQnt t2.toRegisters ∧
        t1.responses = s1.responses ++ [r] ∧ t2.responses = s2.responses ++ [r]

/-- However the interconnect interleaves a host that uses the CRC with one that uses the quantizer, the registers end as
if one had run after the other (00_scope.md rule R2, 20_memory.md rules R45 and R48; hosts as an order of arrival are
log 9). -/
def Obligations.UnitStreamsCommute : Prop :=
  ∀ (s : State) (crcs qnts zs : List Transaction),
    s.phase = .operating → (∀ t ∈ crcs, addressesCrc t) → (∀ t ∈ qnts, addressesQnt t) → Interleaving crcs qnts zs →
    ∃ t t' : State, RunsTo { s with pending := zs.map .transaction } zs.length t ∧
      RunsTo { s with pending := (crcs ++ qnts).map .transaction } (crcs ++ qnts).length t' ∧
      t.toRegisters = t'.toRegisters

/-- 20_memory.md rule R47: a read has no side effect, and gives the same value again as long as no register has been
written; which writes are idempotent; writes to CRC_DATA, of every width, are not. -/
def Obligations.SideEffectsAndIdempotency : Prop :=
  (∀ (i : Instr) (s : State), i.isRead = true →
      ∃ v : Word, exec i s = .next { s with responses := s.responses ++ [.ok v] } ∧
        ∀ s' : State, s'.toRegisters = s.toRegisters →
          exec i s' = .next { s' with responses := s'.responses ++ [.ok v] }) ∧
    (∀ (s : State) (v : Word) (i : Instr),
      (i = .crcCtrlWr v ∧ v.getLsbD 0 = true) ∨ i = .crcStateWr v ∨ i = .qntInWr v ∨ i = .qntStatusWr v →
        ∃ t t', exec i s = .next t ∧ exec i t = .next t' ∧ t'.toRegisters = t.toRegisters) ∧
    (∃ (s t t' : State) (b : Byte), exec (.crcDataWr8 b) s = .next t ∧ exec (.crcDataWr8 b) t = .next t' ∧
      t'.crcState = crcByte (crcByte s.crcState b) b ∧ t'.crcState ≠ t.crcState) ∧
    (∃ (s t t' : State) (h : Half), exec (.crcDataWr16 h) s = .next t ∧ exec (.crcDataWr16 h) t = .next t' ∧
      t'.crcState ≠ t.crcState) ∧
    ∃ (s t t' : State) (v : Word), exec (.crcDataWr32 v) s = .next t ∧ exec (.crcDataWr32 v) t = .next t' ∧
      t'.crcState ≠ t.crcState

/-- 30_encoding.md rule R70: the operations that are legal and change no state. -/
def Obligations.NoOperationEncodings : Prop :=
  ∀ (s : State) (i : Instr),
    (i.isRead = true ∨ (∃ v, i = .qntOutWr v) ∨ (∃ v, i = .crcResultWr v) ∨
      (∃ v, i = .crcCtrlWr v ∧ v.getLsbD 0 = false) ∨ (∃ v : Word, i = .qntStatusWr v ∧ v.extractLsb' 0 2 = 0)) →
    ∃ t, exec i s = .next t ∧ t.toRegisters = s.toRegisters

/-- Which operations can change which register: CRC_STATE only CRC_CTRL_WR, CRC_DATA_WR8/16/32 and CRC_STATE_WR; QNT_IN
and QNT_OUT only QNT_IN_WR; the flags only QNT_IN_WR, which sets, and QNT_STATUS_WR, which clears; and no operation
touches the queue of arrivals or takes a response back (10_state.md rules R26 and R31; 41_quantizer.md rule R89). -/
def Obligations.OnlyTheseOperationsWriteARegister : Prop :=
  ∀ (i : Instr) (s t : State), exec i s = .next t →
    t.pending = s.pending ∧ t.phase = s.phase ∧ t.qntTie = s.qntTie ∧ (∃ v, t.responses = s.responses ++ [.ok v]) ∧
    (t.crcState ≠ s.crcState →
      (∃ v, i = .crcCtrlWr v) ∨ (∃ b, i = .crcDataWr8 b) ∨ (∃ h, i = .crcDataWr16 h) ∨ (∃ v, i = .crcDataWr32 v) ∨
        ∃ v, i = .crcStateWr v) ∧
    (t.qntIn ≠ s.qntIn ∨ t.qntOut ≠ s.qntOut → ∃ v, i = .qntInWr v) ∧
    (t.qntStatus.clamp = true ∧ s.qntStatus.clamp = false ∨ t.qntStatus.nan = true ∧ s.qntStatus.nan = false →
      ∃ v, i = .qntInWr v) ∧
    (t.qntStatus.clamp = false ∧ s.qntStatus.clamp = true ∨ t.qntStatus.nan = false ∧ s.qntStatus.nan = true →
      ∃ v, i = .qntStatusWr v)

/-- The flags are sticky over every step after which the registers are specified: one that was set is clear afterwards only
through a reset or a 4-byte write to QNT_STATUS with a 1 in its bit (10_state.md rule R26). A step into the phase
`unspecified` (log 4) is left out, because rules R153 and R161 promise nothing of the registers there. -/
def Obligations.FlagsAreSticky : Prop :=
  ∀ s s' : State, step s = .next s' → s'.phase = .operating →
    (s.qntStatus.clamp = true → s'.qntStatus.clamp = false →
      (∃ o rest, s.pending = .reset o :: rest) ∨
        ∃ v rest, s.pending = .transaction (encode (.qntStatusWr v)) :: rest ∧ v.getLsbD 0 = true) ∧
    (s.qntStatus.nan = true → s'.qntStatus.nan = false →
      (∃ o rest, s.pending = .reset o :: rest) ∨
        ∃ v rest, s.pending = .transaction (encode (.qntStatusWr v)) :: rest ∧ v.getLsbD 1 = true)

/-- 60_exceptions.md rule R143: no data value causes an error. Every operation completes with OK on every operand and
state, and whether a transaction is an error does not depend on its write data. -/
def Obligations.NoDataDependentErrors : Prop :=
  (∀ (i : Instr) (s : State), ∃ (t : State) (v : Word), exec i s = .next t ∧ t.responses = s.responses ++ [.ok v]) ∧
    ∀ (t : Transaction) (v : Word) (c : BusErrorCause),
      decode t = .error c ↔ decode { t with wdata := v } = .error c

/-- The quantizer's invariant, that while the registers are specified QNT_OUT is the conversion of QNT_IN, is kept by
every step from every state that has it (10_state.md rules R25 and R33; 41_quantizer.md rules R86 and R89). -/
def Obligations.StepKeepsQntOutAConversion : Prop :=
  ∀ s s' : State, QntOutIsConversion s → step s = .next s' → QntOutIsConversion s'

/-- The reset state has the quantizer's invariant (10_state.md rule R33). -/
def Obligations.ResetQntOutIsConversion : Prop :=
  QntOutIsConversion State.reset

/-! ## The host side -/

/-- 00_scope.md rule R11, MemRead and MemWrite: an access of 1, 2 or 4 bytes at an address in the window is one
transaction with OFF = addr - CRCQ_BASE; with a 64-byte aligned base (rule R7) that is the address modulo 64; an access
outside the window is none. -/
def Obligations.BusAccessIsOneTransaction : Prop :=
  ∀ (p : Config.Parameters) (write : Bool) (addr n : Nat) (v : Word), p.Valid → n = 1 ∨ n = 2 ∨ n = 4 →
    (p.crcqBase ≤ addr → addr < p.crcqBase + 64 →
      ∃ t, busAccess p write addr n v = some t ∧ t.w = write ∧ nbytes t.sz = some n ∧
        t.off.toNat = addr - p.crcqBase ∧ t.off.toNat = addr % 64 ∧ (write = true → t.wdata = v)) ∧
    (addr < p.crcqBase ∨ p.crcqBase + 64 ≤ addr → busAccess p write addr n v = none)

/-- Over every handshake that meets the constraint of 00_scope.md rule R7 (BUS_PROTOCOL), some cycles carry the transaction
and the one response the block gives to it; and a transaction with the same fields of 30_encoding.md rule R60, which is
what the cycles carry, gets the same step, WDATA of a read being ignored. The form of a handshake is the model's (log 12). -/
def Obligations.BusProtocolCarriesEveryExchange : Prop :=
  ∀ (p : Config.Parameters) (s : State) (t : Transaction) (rest : List BusEvent), p.Valid →
    s.pending = .transaction t :: rest → s.phase = .operating →
      ∃ (s' : State) (r : Response), step s = .next s' ∧ s'.responses = s.responses ++ [r] ∧
        (∃ cycles, p.busProtocol.Carries cycles t r.resp r.rdata) ∧
        ∀ t' : Transaction, t'.SameFields t → step { s with pending := .transaction t' :: rest } = .next s'

/-- 30_encoding.md rule R73: the pseudo-instructions expand to the transactions shown, as descriptor and, in a write,
write data. -/
def Obligations.PseudoInstructionsExpand : Prop :=
  let shown (ops : List PseudoOp) : List (BitVec 9 × Option Word) :=
    ops.flatMap fun op => op.expand.map fun h =>
      (h.transaction.descriptor, if h.transaction.w then some h.transaction.wdata else none)
  shown [.crcInit] = [(0x190, some 0x00000001)] ∧
    (∀ b : Byte, shown [.crcB b] = [(0x114, some (b.setWidth 32))]) ∧
    (∀ h : Half, shown [.crcH h] = [(0x154, some (h.setWidth 32))]) ∧
    (∀ w : Word, shown [.crcW w] = [(0x194, some w)]) ∧
    (∀ bs : List Byte, shown [.crcBytes bs] = bs.map fun b => (0x114, some (b.setWidth 32))) ∧
    shown [.crcGet] = [(0x09C, none)] ∧ shown [.crcSave] = [(0x098, none)] ∧
    (∀ v : Word, shown [.crcRestore v] = [(0x198, some v)]) ∧
    (∀ bs : List Byte, shown [.crc32 bs] = shown [.crcInit, .crcBytes bs, .crcGet]) ∧
    (∀ v : Word, shown [.qnt v] = [(0x180, some v)]) ∧ shown [.qntGet] = [(0x084, none)] ∧
    shown [.qntFlags] = [(0x088, none)] ∧ ∀ m : Word, shown [.qntClr m] = [(0x188, some m)]
end

