-- ==== Sys2Proof/Laws/Crc.lean ====
section
/-! SUPPORT. Small lemmas about the CRC iteration: it is linear over GF(2) and iterations add up. -/

namespace Sys2Proof.Machine

@[simp] theorem crcShifts_zero (c : Word) : crcShifts 0 c = c := rfl

theorem crcShifts_succ (n : Nat) (c : Word) : crcShifts (n + 1) c = crcShifts n (crcShift c) := rfl

@[simp] theorem crcBytes_nil (c : Word) : crcBytes c [] = c := rfl

@[simp] theorem crcBytes_cons (c : Word) (b : Byte) (bs : List Byte) :
    crcBytes c (b :: bs) = crcBytes (crcByte c b) bs := rfl

@[simp] theorem crcShift_zero : crcShift 0 = 0 := by decide

/-- One iteration is linear over GF(2). -/
theorem crcShift_xor (c d : Word) : crcShift (c ^^^ d) = crcShift c ^^^ crcShift d := by
  have shift : (c ^^^ d) >>> 1 = c >>> 1 ^^^ d >>> 1 := BitVec.ushiftRight_xor_distrib c d 1
  have cancel (a b p : Word) : a ^^^ b = a ^^^ p ^^^ (b ^^^ p) := by
    ext k
    cases hb : b[k] <;> cases hp : p[k] <;> simp [hb, hp]
  unfold crcShift
  rw [BitVec.getLsbD_xor, shift]
  cases c.getLsbD 0 <;> cases d.getLsbD 0
  · rfl
  · exact BitVec.xor_assoc ..
  · show c >>> 1 ^^^ d >>> 1 ^^^ _ = c >>> 1 ^^^ _ ^^^ d >>> 1
    ac_rfl
  · exact cancel ..

/-- n iterations are linear over GF(2). -/
theorem crcShifts_xor (n : Nat) (c d : Word) : crcShifts n (c ^^^ d) = crcShifts n c ^^^ crcShifts n d := by
  induction n generalizing c d with
  | zero => rfl
  | succ n ih => simp only [crcShifts_succ, crcShift_xor, ih]

theorem crcShifts_add (m n : Nat) (c : Word) : crcShifts (m + n) c = crcShifts n (crcShifts m c) := by
  induction m generalizing c with
  | zero => simp
  | succ m ih => rw [Nat.succ_add_eq_add_succ, Nat.add_succ, crcShifts_succ, crcShifts_succ, ih]

/-- The byte step is 8 iterations on the register with the byte XORed into its low lane. -/
theorem crcByte_eq (c : Word) (b : Byte) : crcByte c b = crcShifts 8 (c ^^^ b.setWidth 32) := rfl

end Sys2Proof.Machine
end

