-- ==== Sys2Proof/Laws/Decode.lean ====
section
/-! SUPPORT. Small lemmas about descriptors, the register map and the decoder. -/

namespace Sys2Proof

/-! ### Descriptors -/

@[simp] theorem Transaction.ofDescriptor_w (d : BitVec 9) (v : Word) :
    (Transaction.ofDescriptor d v).w = d.getLsbD 8 := rfl
@[simp] theorem Transaction.ofDescriptor_sz (d : BitVec 9) (v : Word) :
    (Transaction.ofDescriptor d v).sz = d.extractLsb' 6 2 := rfl
@[simp] theorem Transaction.ofDescriptor_off (d : BitVec 9) (v : Word) :
    (Transaction.ofDescriptor d v).off = d.extractLsb' 0 6 := rfl
@[simp] theorem Transaction.ofDescriptor_wdata (d : BitVec 9) (v : Word) :
    (Transaction.ofDescriptor d v).wdata = v := rfl

/-- Taking a descriptor apart into its fields and putting them together again gives it back. -/
@[simp] theorem Transaction.descriptor_ofDescriptor (d : BitVec 9) (v : Word) :
    (Transaction.ofDescriptor d v).descriptor = d := by
  have key : ∀ d : BitVec 9, BitVec.ofBool (d.getLsbD 8) ++ d.extractLsb' 6 2 ++ d.extractLsb' 0 6 = d := by decide
  exact key d

/-- A transaction is its descriptor and its write data. -/
theorem Transaction.ofDescriptor_descriptor (t : Transaction) :
    Transaction.ofDescriptor t.descriptor t.wdata = t := by
  obtain ⟨w, sz, off, v⟩ := t
  have key : ∀ (w : Bool) (sz : BitVec 2) (off : BitVec 6),
      (BitVec.ofBool w ++ sz ++ off : BitVec 9).getLsbD 8 = w ∧
        (BitVec.ofBool w ++ sz ++ off : BitVec 9).extractLsb' 6 2 = sz ∧
        (BitVec.ofBool w ++ sz ++ off : BitVec 9).extractLsb' 0 6 = off := by decide
  obtain ⟨h1, h2, h3⟩ := key w sz off
  simp only [Transaction.ofDescriptor, Transaction.descriptor, Transaction.mk.injEq]
  exact ⟨h1, h2, h3, trivial⟩

/-! ### The register map -/

@[simp] theorem Reg.ofOffset_offset (r : Reg) : Reg.ofOffset r.offset = some r := by
  cases r <;> decide

/-- The map is one to one: a register is found only at its own offset. -/
theorem Reg.ofOffset_eq_some {off : BitVec 6} {r : Reg} (h : Reg.ofOffset off = some r) : off = r.offset := by
  revert r
  revert off
  have key : ∀ off : BitVec 6, ∀ r : Option Reg, Reg.ofOffset off = r →
      (match r with | none => true | some r => decide (off = r.offset)) = true := by
    intro off r h
    subst h
    revert off
    decide
  intro off r h
  simpa using key off (some r) h

/-! ### The decoder -/

/-- Everything an accepted transaction satisfies. -/
theorem decode_eq_ok {t : Transaction} {i : Instr} (h : decode t = .ok i) :
    ∃ r, Reg.ofOffset t.off = some r ∧ t.off = r.offset ∧ t.sz ≠ 0b11 ∧ t.off.extractLsb' 0 2 = 0b00 ∧
      (t.sz = 0b10 ∨ (t.w = true ∧ t.off = 0x14)) ∧ i = operationAt t r := by
  unfold decode at h
  split at h
  · cases h
  · rename_i hsz
    split at h
    · cases h
    · rename_i hal
      split at h
      · cases h
      · rename_i r hr
        split at h
        · rename_i hp
          injection h with h
          exact ⟨r, hr, Reg.ofOffset_eq_some hr, hsz, by simpa using hal, hp, h.symm⟩
        · cases h

/-- The decoder's answer for a transaction that passes its checks. -/
theorem decode_of_checks {t : Transaction} {r : Reg} (hsz : t.sz ≠ 0b11) (hoff : t.off = r.offset)
    (hp : t.sz = 0b10 ∨ (t.w = true ∧ t.off = 0x14)) : decode t = .ok (operationAt t r) := by
  have hal : t.off.extractLsb' 0 2 = 0b00 := by rw [hoff]; cases r <;> decide
  have hr : Reg.ofOffset t.off = some r := by rw [hoff]; exact Reg.ofOffset_offset r
  simp only [decode, hsz, hal, hr, hp, if_false, if_true, ne_eq, not_true_eq_false]

/-- The decoder reads the fields of rule R60 and nothing else: WDATA of a read plays no part. -/
theorem decode_congr {t t' : Transaction} (h : t.SameFields t') : decode t = decode t' := by
  obtain ⟨w, sz, off, v⟩ := t
  obtain ⟨w', sz', off', v'⟩ := t'
  obtain ⟨rfl, rfl, rfl, hv⟩ := h
  cases w with
  | true => rw [show v = v' from hv rfl]
  | false => rfl

theorem decodeTransaction_eq_some {t : Transaction} {i : Instr} :
    decodeTransaction t = some i ↔ decode t = .ok i := by
  unfold decodeTransaction
  cases decode t <;> simp

end Sys2Proof
end

