-- ==== Sys2Proof/Laws/State.lean ====
section
/-! SUPPORT. What each update of the state does to each field: one lemma per field per update, so that no later proof
unfolds a record update. -/

namespace Sys2Proof.Machine.State

variable (s : State)

/-! ### `arrive` -/

@[simp] theorem arrive_crcState (rest : List BusEvent) : (s.arrive rest).crcState = s.crcState := rfl
@[simp] theorem arrive_qntIn (rest : List BusEvent) : (s.arrive rest).qntIn = s.qntIn := rfl
@[simp] theorem arrive_qntOut (rest : List BusEvent) : (s.arrive rest).qntOut = s.qntOut := rfl
@[simp] theorem arrive_qntStatus (rest : List BusEvent) : (s.arrive rest).qntStatus = s.qntStatus := rfl
@[simp] theorem arrive_pending (rest : List BusEvent) : (s.arrive rest).pending = rest := rfl
@[simp] theorem arrive_responses (rest : List BusEvent) : (s.arrive rest).responses = s.responses := rfl
@[simp] theorem arrive_phase (rest : List BusEvent) : (s.arrive rest).phase = s.phase := rfl
@[simp] theorem arrive_qntTie (rest : List BusEvent) : (s.arrive rest).qntTie = s.qntTie := rfl
@[simp] theorem arrive_toRegisters (rest : List BusEvent) : (s.arrive rest).toRegisters = s.toRegisters := rfl

/-! ### `respond` -/

@[simp] theorem respond_crcState (r : Response) : (s.respond r).crcState = s.crcState := rfl
@[simp] theorem respond_qntIn (r : Response) : (s.respond r).qntIn = s.qntIn := rfl
@[simp] theorem respond_qntOut (r : Response) : (s.respond r).qntOut = s.qntOut := rfl
@[simp] theorem respond_qntStatus (r : Response) : (s.respond r).qntStatus = s.qntStatus := rfl
@[simp] theorem respond_pending (r : Response) : (s.respond r).pending = s.pending := rfl
@[simp] theorem respond_responses (r : Response) : (s.respond r).responses = s.responses ++ [r] := rfl
@[simp] theorem respond_phase (r : Response) : (s.respond r).phase = s.phase := rfl
@[simp] theorem respond_qntTie (r : Response) : (s.respond r).qntTie = s.qntTie := rfl
@[simp] theorem respond_toRegisters (r : Response) : (s.respond r).toRegisters = s.toRegisters := rfl

/-! ### `complete` -/

@[simp] theorem complete_crcState (v : Word) : (s.complete v).crcState = s.crcState := rfl
@[simp] theorem complete_qntIn (v : Word) : (s.complete v).qntIn = s.qntIn := rfl
@[simp] theorem complete_qntOut (v : Word) : (s.complete v).qntOut = s.qntOut := rfl
@[simp] theorem complete_qntStatus (v : Word) : (s.complete v).qntStatus = s.qntStatus := rfl
@[simp] theorem complete_pending (v : Word) : (s.complete v).pending = s.pending := rfl
@[simp] theorem complete_responses (v : Word) : (s.complete v).responses = s.responses ++ [.ok v] := rfl
@[simp] theorem complete_phase (v : Word) : (s.complete v).phase = s.phase := rfl
@[simp] theorem complete_qntTie (v : Word) : (s.complete v).qntTie = s.qntTie := rfl
@[simp] theorem complete_toRegisters (v : Word) : (s.complete v).toRegisters = s.toRegisters := rfl

/-! ### `busError` -/

@[simp] theorem busError_crcState (c : BusErrorCause) : (s.busError c).crcState = s.crcState := rfl
@[simp] theorem busError_qntIn (c : BusErrorCause) : (s.busError c).qntIn = s.qntIn := rfl
@[simp] theorem busError_qntOut (c : BusErrorCause) : (s.busError c).qntOut = s.qntOut := rfl
@[simp] theorem busError_qntStatus (c : BusErrorCause) : (s.busError c).qntStatus = s.qntStatus := rfl
@[simp] theorem busError_pending (c : BusErrorCause) : (s.busError c).pending = s.pending := rfl
@[simp] theorem busError_responses (c : BusErrorCause) : (s.busError c).responses = s.responses ++ [.error c] := rfl
@[simp] theorem busError_phase (c : BusErrorCause) : (s.busError c).phase = s.phase := rfl
@[simp] theorem busError_qntTie (c : BusErrorCause) : (s.busError c).qntTie = s.qntTie := rfl
@[simp] theorem busError_toRegisters (c : BusErrorCause) : (s.busError c).toRegisters = s.toRegisters := rfl

/-! ### `writeCrcState` -/

@[simp] theorem writeCrcState_crcState (v : Word) : (s.writeCrcState v).crcState = v := rfl
@[simp] theorem writeCrcState_qntIn (v : Word) : (s.writeCrcState v).qntIn = s.qntIn := rfl
@[simp] theorem writeCrcState_qntOut (v : Word) : (s.writeCrcState v).qntOut = s.qntOut := rfl
@[simp] theorem writeCrcState_qntStatus (v : Word) : (s.writeCrcState v).qntStatus = s.qntStatus := rfl
@[simp] theorem writeCrcState_pending (v : Word) : (s.writeCrcState v).pending = s.pending := rfl
@[simp] theorem writeCrcState_responses (v : Word) : (s.writeCrcState v).responses = s.responses := rfl
@[simp] theorem writeCrcState_phase (v : Word) : (s.writeCrcState v).phase = s.phase := rfl
@[simp] theorem writeCrcState_qntTie (v : Word) : (s.writeCrcState v).qntTie = s.qntTie := rfl

/-! ### `writeQntIn` -/

@[simp] theorem writeQntIn_crcState (v : Word) : (s.writeQntIn v).crcState = s.crcState := rfl
@[simp] theorem writeQntIn_qntIn (v : Word) : (s.writeQntIn v).qntIn = v := rfl
@[simp] theorem writeQntIn_qntOut (v : Word) : (s.writeQntIn v).qntOut = s.qntOut := rfl
@[simp] theorem writeQntIn_qntStatus (v : Word) : (s.writeQntIn v).qntStatus = s.qntStatus := rfl
@[simp] theorem writeQntIn_pending (v : Word) : (s.writeQntIn v).pending = s.pending := rfl
@[simp] theorem writeQntIn_responses (v : Word) : (s.writeQntIn v).responses = s.responses := rfl
@[simp] theorem writeQntIn_phase (v : Word) : (s.writeQntIn v).phase = s.phase := rfl
@[simp] theorem writeQntIn_qntTie (v : Word) : (s.writeQntIn v).qntTie = s.qntTie := rfl

/-! ### `writeQntOut` -/

@[simp] theorem writeQntOut_crcState (v : Half) : (s.writeQntOut v).crcState = s.crcState := rfl
@[simp] theorem writeQntOut_qntIn (v : Half) : (s.writeQntOut v).qntIn = s.qntIn := rfl
@[simp] theorem writeQntOut_qntOut (v : Half) : (s.writeQntOut v).qntOut = v := rfl
@[simp] theorem writeQntOut_qntStatus (v : Half) : (s.writeQntOut v).qntStatus = s.qntStatus := rfl
@[simp] theorem writeQntOut_pending (v : Half) : (s.writeQntOut v).pending = s.pending := rfl
@[simp] theorem writeQntOut_responses (v : Half) : (s.writeQntOut v).responses = s.responses := rfl
@[simp] theorem writeQntOut_phase (v : Half) : (s.writeQntOut v).phase = s.phase := rfl
@[simp] theorem writeQntOut_qntTie (v : Half) : (s.writeQntOut v).qntTie = s.qntTie := rfl

/-! ### `writeQntStatus` -/

@[simp] theorem writeQntStatus_crcState (st : QntStatus) : (s.writeQntStatus st).crcState = s.crcState := rfl
@[simp] theorem writeQntStatus_qntIn (st : QntStatus) : (s.writeQntStatus st).qntIn = s.qntIn := rfl
@[simp] theorem writeQntStatus_qntOut (st : QntStatus) : (s.writeQntStatus st).qntOut = s.qntOut := rfl
@[simp] theorem writeQntStatus_qntStatus (st : QntStatus) : (s.writeQntStatus st).qntStatus = st := rfl
@[simp] theorem writeQntStatus_pending (st : QntStatus) : (s.writeQntStatus st).pending = s.pending := rfl
@[simp] theorem writeQntStatus_responses (st : QntStatus) : (s.writeQntStatus st).responses = s.responses := rfl
@[simp] theorem writeQntStatus_phase (st : QntStatus) : (s.writeQntStatus st).phase = s.phase := rfl
@[simp] theorem writeQntStatus_qntTie (st : QntStatus) : (s.writeQntStatus st).qntTie = s.qntTie := rfl

/-! ### `applyReset` -/

@[simp] theorem applyReset_crcState : (s.applyReset).crcState = 0xFFFFFFFF := rfl
@[simp] theorem applyReset_qntIn : (s.applyReset).qntIn = 0x00000000 := rfl
@[simp] theorem applyReset_qntOut : (s.applyReset).qntOut = 0x0000 := rfl
@[simp] theorem applyReset_qntStatus : (s.applyReset).qntStatus = { clamp := false, nan := false } := rfl
@[simp] theorem applyReset_pending : (s.applyReset).pending = s.pending := rfl
@[simp] theorem applyReset_responses : (s.applyReset).responses = s.responses := rfl
@[simp] theorem applyReset_phase : (s.applyReset).phase = .operating := rfl
@[simp] theorem applyReset_qntTie : (s.applyReset).qntTie = s.qntTie := rfl

/-! ### `losePower` -/

@[simp] theorem losePower_crcState : (s.losePower).crcState = s.crcState := rfl
@[simp] theorem losePower_qntIn : (s.losePower).qntIn = s.qntIn := rfl
@[simp] theorem losePower_qntOut : (s.losePower).qntOut = s.qntOut := rfl
@[simp] theorem losePower_qntStatus : (s.losePower).qntStatus = s.qntStatus := rfl
@[simp] theorem losePower_pending : (s.losePower).pending = s.pending := rfl
@[simp] theorem losePower_responses : (s.losePower).responses = s.responses := rfl
@[simp] theorem losePower_phase : (s.losePower).phase = .unspecified := rfl
@[simp] theorem losePower_qntTie : (s.losePower).qntTie = s.qntTie := rfl
@[simp] theorem losePower_toRegisters : (s.losePower).toRegisters = s.toRegisters := rfl

/-! ### `feedBytes` -/

@[simp] theorem feedBytes_crcState (bs : List Byte) : (s.feedBytes bs).crcState = crcBytes s.crcState bs := rfl
@[simp] theorem feedBytes_qntIn (bs : List Byte) : (s.feedBytes bs).qntIn = s.qntIn := rfl
@[simp] theorem feedBytes_qntOut (bs : List Byte) : (s.feedBytes bs).qntOut = s.qntOut := rfl
@[simp] theorem feedBytes_qntStatus (bs : List Byte) : (s.feedBytes bs).qntStatus = s.qntStatus := rfl
@[simp] theorem feedBytes_pending (bs : List Byte) : (s.feedBytes bs).pending = s.pending := rfl
@[simp] theorem feedBytes_responses (bs : List Byte) : (s.feedBytes bs).responses = s.responses := rfl
@[simp] theorem feedBytes_phase (bs : List Byte) : (s.feedBytes bs).phase = s.phase := rfl
@[simp] theorem feedBytes_qntTie (bs : List Byte) : (s.feedBytes bs).qntTie = s.qntTie := rfl

/-! ### `convertSample` -/

@[simp] theorem convertSample_crcState (v : Word) : (s.convertSample v).crcState = s.crcState := rfl
@[simp] theorem convertSample_qntIn (v : Word) : (s.convertSample v).qntIn = v := rfl
@[simp] theorem convertSample_qntOut (v : Word) : (s.convertSample v).qntOut = (quantize s.qntTie v).value := rfl
@[simp] theorem convertSample_qntStatus (v : Word) : (s.convertSample v).qntStatus = s.qntStatus.accumulate (quantize s.qntTie v).clamp (quantize s.qntTie v).nan := rfl
@[simp] theorem convertSample_pending (v : Word) : (s.convertSample v).pending = s.pending := rfl
@[simp] theorem convertSample_responses (v : Word) : (s.convertSample v).responses = s.responses := rfl
@[simp] theorem convertSample_phase (v : Word) : (s.convertSample v).phase = s.phase := rfl
@[simp] theorem convertSample_qntTie (v : Word) : (s.convertSample v).qntTie = s.qntTie := rfl

@[simp] theorem applyReset_toRegisters : s.applyReset.toRegisters = Registers.reset := rfl

/-! ### The reset state -/

@[simp] theorem reset_crcState : State.reset.crcState = 0xFFFFFFFF := rfl
@[simp] theorem reset_qntIn : State.reset.qntIn = 0x00000000 := rfl
@[simp] theorem reset_qntOut : State.reset.qntOut = 0x0000 := rfl
@[simp] theorem reset_qntStatus : State.reset.qntStatus = { clamp := false, nan := false } := rfl
@[simp] theorem reset_pending : State.reset.pending = [] := rfl
@[simp] theorem reset_responses : State.reset.responses = [] := rfl
@[simp] theorem reset_phase : State.reset.phase = .operating := rfl
@[simp] theorem reset_qntTie : State.reset.qntTie = .halfUp := rfl

@[simp] theorem resetWith_qntTie (p : Config.Parameters) : (State.resetWith p).qntTie = p.qntTie := rfl
@[simp] theorem resetWith_toRegisters (p : Config.Parameters) :
    (State.resetWith p).toRegisters = Registers.reset := rfl

/-! ### The state a table word is fetched from -/

@[simp] theorem withFetchWord_crcState (nbits w : Nat) : (s.withFetchWord nbits w).crcState = s.crcState := rfl
@[simp] theorem withFetchWord_qntIn (nbits w : Nat) : (s.withFetchWord nbits w).qntIn = s.qntIn := rfl
@[simp] theorem withFetchWord_qntOut (nbits w : Nat) : (s.withFetchWord nbits w).qntOut = s.qntOut := rfl
@[simp] theorem withFetchWord_qntStatus (nbits w : Nat) : (s.withFetchWord nbits w).qntStatus = s.qntStatus := rfl
@[simp] theorem withFetchWord_pending (nbits w : Nat) : (s.withFetchWord nbits w).pending = .transaction (Transaction.ofTableWord nbits w) :: s.pending := rfl
@[simp] theorem withFetchWord_responses (nbits w : Nat) : (s.withFetchWord nbits w).responses = s.responses := rfl
@[simp] theorem withFetchWord_phase (nbits w : Nat) : (s.withFetchWord nbits w).phase = .operating := rfl
@[simp] theorem withFetchWord_qntTie (nbits w : Nat) : (s.withFetchWord nbits w).qntTie = s.qntTie := rfl

end Sys2Proof.Machine.State
end

