-- ==== Sys2Proof/Laws/Ops.lean ====
section
/-! SUPPORT. One lemma per shared operation: what a read returns, that answering does not disturb a read, what the flag
computations do bit by bit, and what the bus shows of a response. -/

namespace Sys2Proof.Machine

/-! ### Reading a register -/

section ReadReg
variable (s : State)

@[simp] theorem State.readReg_qntIn : s.readReg .qntIn = s.qntIn := rfl
@[simp] theorem State.readReg_qntOut : s.readReg .qntOut = s.qntOut.signExtend 32 := rfl
@[simp] theorem State.readReg_qntStatus : s.readReg .qntStatus = s.qntStatus.toWord := rfl
@[simp] theorem State.readReg_crcCtrl : s.readReg .crcCtrl = 0 := rfl
@[simp] theorem State.readReg_crcData : s.readReg .crcData = 0 := rfl
@[simp] theorem State.readReg_crcState : s.readReg .crcState = s.crcState := rfl
@[simp] theorem State.readReg_crcResult : s.readReg .crcResult = s.crcState ^^^ 0xFFFFFFFF := rfl

/-- A read depends on the registers alone. -/
theorem State.readReg_congr {s s' : State} (h : s.toRegisters = s'.toRegisters) (r : Reg) :
    s.readReg r = s'.readReg r := by
  have h1 : s.crcState = s'.crcState := congrArg Registers.crcState h
  have h2 : s.qntIn = s'.qntIn := congrArg Registers.qntIn h
  have h3 : s.qntOut = s'.qntOut := congrArg Registers.qntOut h
  have h4 : s.qntStatus = s'.qntStatus := congrArg Registers.qntStatus h
  cases r <;> simp [h1, h2, h3, h4]

end ReadReg

/-! ### Responses on the bus -/

@[simp] theorem Response.resp_ok (v : Word) : (Response.ok v).resp = .ok := rfl
@[simp] theorem Response.resp_error (c : BusErrorCause) : (Response.error c).resp = .err := rfl
@[simp] theorem Response.rdata_ok (v : Word) : (Response.ok v).rdata = v := rfl
@[simp] theorem Response.rdata_error (c : BusErrorCause) : (Response.error c).rdata = 0 := rfl

/-! ### Flags -/

@[simp] theorem QntStatus.accumulate_clamp (st : QntStatus) (c n : Bool) :
    (st.accumulate c n).clamp = (st.clamp || c) := rfl
@[simp] theorem QntStatus.accumulate_nan (st : QntStatus) (c n : Bool) : (st.accumulate c n).nan = (st.nan || n) := rfl
@[simp] theorem QntStatus.clear_clamp (st : QntStatus) (v : Word) :
    (st.clear v).clamp = (st.clamp && !v.getLsbD 0) := rfl
@[simp] theorem QntStatus.clear_nan (st : QntStatus) (v : Word) : (st.clear v).nan = (st.nan && !v.getLsbD 1) := rfl

/-- ORing the same indicators in twice is ORing them in once: the flags are sticky. -/
theorem QntStatus.accumulate_twice (st : QntStatus) (c n : Bool) :
    (st.accumulate c n).accumulate c n = st.accumulate c n := by
  simp [QntStatus.accumulate]

/-- Clearing twice is clearing once. -/
theorem QntStatus.clear_twice (st : QntStatus) (v : Word) : (st.clear v).clear v = st.clear v := by
  simp [QntStatus.clear]

end Sys2Proof.Machine
end

