-- ==== Sys2Proof/Laws/Exec.lean ====
section
/-! SUPPORT. The meanings in one form each, and once for all what an operation can do. -/

namespace Sys2Proof.Machine

section Exec
variable (s : State)

@[simp] theorem exec_qntInRd : exec .qntInRd s = .next (s.complete s.qntIn) := rfl
@[simp] theorem exec_qntOutRd : exec .qntOutRd s = .next (s.complete (s.qntOut.signExtend 32)) := rfl
@[simp] theorem exec_qntStatusRd : exec .qntStatusRd s = .next (s.complete s.qntStatus.toWord) := rfl
@[simp] theorem exec_crcCtrlRd : exec .crcCtrlRd s = .next (s.complete 0) := rfl
@[simp] theorem exec_crcDataRd : exec .crcDataRd s = .next (s.complete 0) := rfl
@[simp] theorem exec_crcStateRd : exec .crcStateRd s = .next (s.complete s.crcState) := rfl
@[simp] theorem exec_crcResultRd : exec .crcResultRd s = .next (s.complete (s.crcState ^^^ 0xFFFFFFFF)) := rfl
@[simp] theorem exec_crcDataWr8 (b : Byte) : exec (.crcDataWr8 b) s = .next ((s.feedBytes [b]).complete 0) := rfl
@[simp] theorem exec_crcDataWr16 (h : Half) :
    exec (.crcDataWr16 h) s = .next ((s.feedBytes (halfBytes h)).complete 0) := rfl
@[simp] theorem exec_crcDataWr32 (v : Word) :
    exec (.crcDataWr32 v) s = .next ((s.feedBytes (wordBytes v)).complete 0) := rfl
@[simp] theorem exec_qntInWr (v : Word) :
    exec (.qntInWr v) s = .next ((s.convertSample v).complete 0) := rfl
@[simp] theorem exec_qntOutWr (v : Word) : exec (.qntOutWr v) s = .next (s.complete 0) := rfl
@[simp] theorem exec_qntStatusWr (v : Word) :
    exec (.qntStatusWr v) s = .next ((s.writeQntStatus (s.qntStatus.clear v)).complete 0) := rfl
@[simp] theorem exec_crcCtrlWr (v : Word) :
    exec (.crcCtrlWr v) s =
      .next ((if v.getLsbD 0 then s.writeCrcState Config.crcInitial else s).complete 0) := rfl
@[simp] theorem exec_crcStateWr (v : Word) : exec (.crcStateWr v) s = .next ((s.writeCrcState v).complete 0) := rfl
@[simp] theorem exec_crcResultWr (v : Word) : exec (.crcResultWr v) s = .next (s.complete 0) := rfl

end Exec

/-- What an operation makes of the registers, apart from the port. -/
def effectOf (i : Instr) (s : State) : State :=
  match i with
  | .crcDataWr8 b => s.feedBytes [b]
  | .crcDataWr16 h => s.feedBytes (halfBytes h)
  | .crcDataWr32 v => s.feedBytes (wordBytes v)
  | .qntInWr v => s.convertSample v
  | .qntStatusWr v => s.writeQntStatus (s.qntStatus.clear v)
  | .crcCtrlWr v => if v.getLsbD 0 then s.writeCrcState Config.crcInitial else s
  | .crcStateWr v => s.writeCrcState v
  | .qntOutWr _ | .crcResultWr _ => s
  | .qntInRd | .qntOutRd | .qntStatusRd | .crcCtrlRd | .crcDataRd | .crcStateRd | .crcResultRd => s

/-- The read data of an operation, 0 for a write. -/
def readDataOf (i : Instr) (s : State) : Word :=
  match i with
  | .qntInRd => s.readReg .qntIn
  | .qntOutRd => s.readReg .qntOut
  | .qntStatusRd => s.readReg .qntStatus
  | .crcCtrlRd => s.readReg .crcCtrl
  | .crcDataRd => s.readReg .crcData
  | .crcStateRd => s.readReg .crcState
  | .crcResultRd => s.readReg .crcResult
  | .crcDataWr8 _ | .crcDataWr16 _ | .qntInWr _ | .qntOutWr _ | .qntStatusWr _ | .crcCtrlWr _ | .crcDataWr32 _
  | .crcStateWr _ | .crcResultWr _ => 0

/-- The read data of the operation of a write is 0 (30_encoding.md rule R60). -/
theorem readDataOf_operationAt_write {t : Transaction} (h : t.w = true) (r : Reg) (s : State) :
    readDataOf (operationAt t r) s = 0 := by
  cases r <;> simp only [operationAt, h, if_true] <;> first | rfl | (split <;> first | rfl | (split <;> rfl))

/-- Every operation runs: it updates the registers and answers OK with its read data, once. -/
theorem exec_eq (i : Instr) (s : State) : exec i s = .next ((effectOf i s).complete (readDataOf i s)) := by
  cases i <;> rfl

/-- The inversion of `exec`: an answered next state is that one. -/
theorem exec_eq_next {i : Instr} {s t : State} (h : exec i s = .next t) :
    t = (effectOf i s).complete (readDataOf i s) := by
  rw [exec_eq] at h
  injection h with h
  exact h.symm

@[simp] theorem effectOf_pending (i : Instr) (s : State) : (effectOf i s).pending = s.pending := by
  cases i <;> simp [effectOf]
  split <;> rfl

@[simp] theorem effectOf_responses (i : Instr) (s : State) : (effectOf i s).responses = s.responses := by
  cases i <;> simp [effectOf]
  split <;> rfl

@[simp] theorem effectOf_qntTie (i : Instr) (s : State) : (effectOf i s).qntTie = s.qntTie := by
  cases i <;> simp [effectOf]
  split <;> rfl

@[simp] theorem effectOf_phase (i : Instr) (s : State) : (effectOf i s).phase = s.phase := by
  cases i <;> simp [effectOf]
  split <;> rfl

end Sys2Proof.Machine
end

