-- ==== Sys2Proof/Laws/PerInstr.lean ====
section
/-! SUPPORT. Statements made of every operation as syntax, one lemma per constructor. -/

namespace Sys2Proof.Laws.EncodeWellFormed

/-- The encoding of the operation is a well-formed transaction of the operation's own direction, in which a read carries
no write data. -/
def Statement (i : Instr) : Prop :=
  (encode i).wf = true ∧ (encode i).w = !i.isRead ∧ (i.isRead = true → (encode i).wdata = 0)

/-- Whether a transaction is well formed, and its direction, are questions of its descriptor alone. -/
theorem of_write {i : Instr} {d : BitVec 9} (hd : i.descriptor = d)
    (hw : (Transaction.ofDescriptor d 0).wf = true ∧ d.getLsbD 8 = true) (hr : i.isRead = false) : Statement i := by
  subst hd
  exact ⟨hw.1, by rw [hr]; exact hw.2, by simp [hr]⟩

theorem qntInRd : Statement .qntInRd := by unfold Statement; decide
theorem qntOutRd : Statement .qntOutRd := by unfold Statement; decide
theorem qntStatusRd : Statement .qntStatusRd := by unfold Statement; decide
theorem crcCtrlRd : Statement .crcCtrlRd := by unfold Statement; decide
theorem crcDataRd : Statement .crcDataRd := by unfold Statement; decide
theorem crcStateRd : Statement .crcStateRd := by unfold Statement; decide
theorem crcResultRd : Statement .crcResultRd := by unfold Statement; decide
theorem crcDataWr8 (b : Byte) : Statement (.crcDataWr8 b) := of_write (d := 0x114) rfl (by decide) rfl
theorem crcDataWr16 (h : Half) : Statement (.crcDataWr16 h) := of_write (d := 0x154) rfl (by decide) rfl
theorem qntInWr (v : Word) : Statement (.qntInWr v) := of_write (d := 0x180) rfl (by decide) rfl
theorem qntOutWr (v : Word) : Statement (.qntOutWr v) := of_write (d := 0x184) rfl (by decide) rfl
theorem qntStatusWr (v : Word) : Statement (.qntStatusWr v) := of_write (d := 0x188) rfl (by decide) rfl
theorem crcCtrlWr (v : Word) : Statement (.crcCtrlWr v) := of_write (d := 0x190) rfl (by decide) rfl
theorem crcDataWr32 (v : Word) : Statement (.crcDataWr32 v) := of_write (d := 0x194) rfl (by decide) rfl
theorem crcStateWr (v : Word) : Statement (.crcStateWr v) := of_write (d := 0x198) rfl (by decide) rfl
theorem crcResultWr (v : Word) : Statement (.crcResultWr v) := of_write (d := 0x19C) rfl (by decide) rfl

end Sys2Proof.Laws.EncodeWellFormed
end

