-- ==== Sys2Proof/Laws/Quantizer.lean ====
section
/-! SUPPORT. Small lemmas about the conversion: the clamped value is in range, and what `roundQ` computes. -/

namespace Sys2Proof.Machine

theorem unitsPerOne_pos : 0 < unitsPerOne := by decide

/-- The clamped value lies in [-1, 1]. -/
theorem clampSample_range {x : Sample} {s : Int} (h : clampSample x = some s) :
    -unitsPerOne ≤ s ∧ s ≤ unitsPerOne := by
  have hp := unitsPerOne_pos
  cases x with
  | nan => cases h
  | infinite n =>
    cases n <;> simp only [clampSample, if_true, Bool.false_eq_true, if_false, Option.some.injEq] at h <;> omega
  | finite x =>
    simp only [clampSample, Option.some.injEq] at h
    omega

theorem clampSample_eq_none {x : Sample} : clampSample x = none ↔ x = .nan := by
  cases x <;> simp [clampSample]

/-- The value of a conversion of a non-NaN sample. -/
theorem quantize_value {tie : Config.QntTie} {b : Word} {s : Int} (h : clampSample (unpackSample b) = some s) :
    (quantize tie b).value = BitVec.ofInt 16 (quantizedInteger tie s) := by
  simp [quantize, h]

theorem roundHalfUp_spec (num : Int) {den : Int} (h : 0 < den) :
    2 * num - den < 2 * den * roundHalfUp num den ∧ 2 * den * roundHalfUp num den ≤ 2 * num + den := by
  have h2 : 0 < 2 * den := by omega
  have h1 := Int.emod_add_mul_ediv (2 * num + den) (2 * den)
  have h3 := Int.emod_nonneg (2 * num + den) (show 2 * den ≠ 0 by omega)
  have h4 := Int.emod_lt_of_pos (2 * num + den) h2
  unfold roundHalfUp
  constructor <;> linarith

/-- Under every tie rule the result is within half a unit of the exact quotient. -/
theorem roundQ_nearest (tie : Config.QntTie) (num : Int) {den : Int} (h : 0 < den) :
    2 * num - den ≤ 2 * den * roundQ tie num den ∧ 2 * den * roundQ tie num den ≤ 2 * num + den := by
  cases tie with
  | halfUp =>
    have := roundHalfUp_spec num h
    exact ⟨this.1.le, this.2⟩
  | halfAway =>
    have h1 := roundHalfUp_spec num h
    have h2 := roundHalfUp_spec (-num) h
    simp only [roundQ]
    split
    · exact ⟨h1.1.le, h1.2⟩
    · constructor <;> linarith
  | halfEven =>
    have h1 := Int.emod_add_mul_ediv num den
    have h3 := Int.emod_nonneg num (show den ≠ 0 by omega)
    have h4 := Int.emod_lt_of_pos num h
    simp only [roundQ]
    split
    · constructor <;> linarith
    · split
      · constructor <;> linarith
      · have he : 2 * (num % den) = den := by omega
        split <;> constructor <;> linarith

end Sys2Proof.Machine
end

