-- ==== Sys2Proof/Laws/Step.lean ====
section
/-! SUPPORT. The step: its equation for each kind of event, and once for all what it can do. -/

namespace Sys2Proof.Machine

theorem step_idle {s : State} (h : s.pending = []) : step s = .next s := by
  simp [step, h]

theorem step_transaction {s : State} {t : Transaction} {rest : List BusEvent} (h : s.pending = .transaction t :: rest) :
    step s = perform t (s.arrive rest) := by
  simp [step, h]

theorem step_reset {s : State} {o : Option Transaction} {rest : List BusEvent} (h : s.pending = .reset o :: rest) :
    step s = .next (s.arrive rest).applyReset := by
  simp [step, h]

theorem step_powerLoss {s : State} {rest : List BusEvent} (h : s.pending = .powerLoss :: rest) :
    step s = .next (s.arrive rest).losePower := by
  simp [step, h]

theorem perform_unspecified {s : State} (t : Transaction) (h : s.phase = .unspecified) :
    perform t s = .refused .beforeReset := by
  simp [perform, h]

theorem perform_ok {s : State} {t : Transaction} {i : Instr} (h : s.phase = .operating) (hd : decode t = .ok i) :
    perform t s = exec i s := by
  simp [perform, h, hd]

theorem perform_error {s : State} {t : Transaction} {c : BusErrorCause} (h : s.phase = .operating)
    (hd : decode t = .error c) : perform t s = .next (s.busError c) := by
  simp [perform, h, hd]

/-- With the registers specified a transaction always completes, leaving the queue, the phase and the tie rule. -/
theorem perform_next (t : Transaction) {s : State} (h : s.phase = .operating) :
    ∃ s', perform t s = .next s' ∧ s'.pending = s.pending ∧ s'.phase = .operating ∧ s'.qntTie = s.qntTie := by
  cases hd : decode t with
  | error c => exact ⟨_, perform_error h hd, rfl, h, rfl⟩
  | ok i => exact ⟨_, (perform_ok h hd).trans (exec_eq i s), by simp, by simpa using h, by simp⟩

/-- What a transaction does does not depend on what waits behind it. -/
theorem perform_arrive (t : Transaction) {s s' : State} (rest : List BusEvent) (hp : s.phase = .operating)
    (h : perform t s = .next s') : perform t (s.arrive rest) = .next (s'.arrive rest) := by
  cases hd : decode t with
  | error c =>
    rw [perform_error hp hd] at h
    injection h with h
    subst h
    exact perform_error (s := s.arrive rest) hp hd
  | ok i =>
    rw [perform_ok hp hd] at h
    rw [perform_ok (s := s.arrive rest) hp hd]
    cases i with
    | crcCtrlWr v =>
      injection h with h
      subst h
      simp only [exec, execCrcCtrlWr]
      cases v.getLsbD 0 <;> rfl
    | _ =>
      injection h with h
      subst h
      rfl

/-- What a step that answers a next state can have done. -/
inductive StepCase (s s' : State) : Prop where
  /-- Nothing was at the port. -/
  | idle (h : s.pending = []) (e : s' = s)
  /-- A well-formed transaction took effect. -/
  | operation (t : Transaction) (rest : List BusEvent) (i : Instr) (h : s.pending = .transaction t :: rest)
      (hp : s.phase = .operating) (hd : decode t = .ok i)
      (e : s' = (effectOf i (s.arrive rest)).complete (readDataOf i (s.arrive rest)))
  /-- A malformed transaction got its error response. -/
  | error (t : Transaction) (rest : List BusEvent) (c : BusErrorCause) (h : s.pending = .transaction t :: rest)
      (hp : s.phase = .operating) (hd : decode t = .error c) (e : s' = (s.arrive rest).busError c)
  /-- A reset. -/
  | reset (o : Option Transaction) (rest : List BusEvent) (h : s.pending = .reset o :: rest)
      (e : s' = (s.arrive rest).applyReset)
  /-- A loss of power or clock. -/
  | powerLoss (rest : List BusEvent) (h : s.pending = .powerLoss :: rest) (e : s' = (s.arrive rest).losePower)

/-- The inversion of `step`. -/
theorem step_cases {s s' : State} (h : step s = .next s') : StepCase s s' := by
  match hp : s.pending with
  | [] =>
    rw [step_idle hp] at h
    injection h with h
    exact .idle hp h.symm
  | .transaction t :: rest =>
    rw [step_transaction hp] at h
    match hph : s.phase with
    | .unspecified =>
      rw [perform_unspecified t (by simpa using hph)] at h
      cases h
    | .operating =>
      match hd : decode t with
      | .ok i =>
        rw [perform_ok (by simpa using hph) hd] at h
        exact .operation t rest i hp hph hd (exec_eq_next h)
      | .error c =>
        rw [perform_error (by simpa using hph) hd] at h
        injection h with h
        exact .error t rest c hp hph hd h.symm
  | .reset o :: rest =>
    rw [step_reset hp] at h
    injection h with h
    exact .reset o rest hp h.symm
  | .powerLoss :: rest =>
    rw [step_powerLoss hp] at h
    injection h with h
    exact .powerLoss rest hp h.symm

/-! ### Runs -/

@[simp] theorem run_zero (s : State) : Host.Core.run Sys2Proof.core 0 s = .next s := rfl

theorem run_succ_of_next {s s' : State} (n : Nat) (h : step s = .next s') :
    Host.Core.run Sys2Proof.core (n + 1) s = Host.Core.run Sys2Proof.core n s' := by
  have h' : Sys2Proof.core.step s = .next s' := h
  simp only [Host.Core.run, h']

/-- Runs compose. -/
theorem run_add {s m : State} {a : Nat} (b : Nat) (h : Host.Core.run Sys2Proof.core a s = .next m) :
    Host.Core.run Sys2Proof.core (a + b) s = Host.Core.run Sys2Proof.core b m := by
  induction a generalizing s with
  | zero =>
    injection h with h
    subst h
    simp
  | succ a ih =>
    match hs : step s with
    | .next s' =>
      rw [run_succ_of_next a hs] at h
      rw [Nat.add_right_comm, run_succ_of_next (a + b) hs]
      exact ih h
    | .fault r => nomatch r
    | .refused r =>
      have hs' : Sys2Proof.core.step s = .refused r := hs
      simp [Host.Core.run, hs'] at h

end Sys2Proof.Machine
end

