-- ==== Sys2Proof/Tests/Slice0.lean ====
section
/-! SUPPORT. Small tests, each expected value taken from spec/ (95_test_vectors.md unless a rule is named), and for each
statement with hypotheses a witness that meets them. -/

namespace Sys2Proof.Tests

open Sys2Proof Sys2Proof.Machine

/-- A state in which every register differs from its reset value. -/
def busy : State where
  crcState := 0x12345678
  qntIn := 0x3F000000
  qntOut := 0x4000
  qntStatus := { clamp := true, nan := true }
  pending := []
  responses := []
  phase := .operating
  qntTie := .halfUp

/-- The state after "a" has been fed from reset (95_test_vectors.md section 3). -/
def afterA : State := { State.reset with crcState := 0x174841BC }

/-- A bus that carries an exchange in one cycle, on wires side by side. -/
def parallelBus : Config.BusProtocol where
  Cycle := Transaction × Resp × Word
  request cycles := cycles.head?.map Prod.fst
  response cycles := cycles.head?.map Prod.snd

/-- A bus with a request cycle that holds WDATA only in a write, and a response cycle after it. -/
def twoCycleBus : Config.BusProtocol where
  Cycle := Sum (Bool × BitVec 2 × BitVec 6 × Option Word) (Resp × Word)
  request cycles :=
    match cycles with
    | [.inl (w, sz, off, v), .inr _] => some { w := w, sz := sz, off := off, wdata := v.getD 0 }
    | _ => none
  response cycles :=
    match cycles with
    | [.inl _, .inr r] => some r
    | _ => none

theorem parallelBus_valid : parallelBus.Valid := fun t resp rdata _ =>
  ⟨[(t, resp, rdata)], ⟨t, rfl, rfl, rfl, rfl, fun _ => rfl⟩, rfl⟩

theorem twoCycleBus_valid : twoCycleBus.Valid := fun t resp rdata _ =>
  ⟨[.inl (t.w, t.sz, t.off, if t.w then some t.wdata else none), .inr (resp, rdata)],
    ⟨_, rfl, rfl, rfl, rfl, fun h => by change t.w = true at h; simp [h]⟩, rfl⟩

/-- Parameters of a block at 0x40, with the given tie rule. -/
def parametersOf (tie : Config.QntTie) : Config.Parameters where
  crcqBase := 0x40
  busProtocol := twoCycleBus
  accessLatency := 1
  resetKind := .asynchronous
  qntTie := tie

theorem parametersOf_valid (tie : Config.QntTie) : (parametersOf tie).Valid :=
  ⟨by simp [parametersOf], twoCycleBus_valid, Nat.le_refl 1⟩

/-- The next state of an outcome, none for a fault or a refusal. -/
def answered (o : Host.Outcome State Fault Refusal) : Option State :=
  match o with
  | .next s => some s
  | .fault _ => none
  | .refused _ => none

/-- Whether an outcome refuses a transaction before reset. -/
def refusedBeforeReset (o : Host.Outcome State Fault Refusal) : Bool :=
  match o with
  | .refused .beforeReset => true
  | .refused (.notModelled _) => false
  | .next _ => false
  | .fault _ => false

/-- The last response after one operation. -/
def answer (i : Instr) (s : State) : Option Response :=
  (answered (exec i s)).bind fun t => t.responses.getLast?

/-- CRC_STATE after one operation. -/
def crcAfter (i : Instr) (s : State) : Option Word :=
  (answered (exec i s)).map fun t => t.crcState

/-- The registers after one operation. -/
def registersAfter (i : Instr) (s : State) : Option Registers :=
  (answered (exec i s)).map fun t => t.toRegisters

/-- The decoder's error for a descriptor, none where it accepts. -/
def decodeError (d : BitVec 9) : Option BusErrorCause :=
  match decode (Transaction.ofDescriptor d 0) with
  | .error c => some c
  | .ok _ => none

/-! ## Well-formedness: an ill-formed term for each check -/

theorem test_reserved_size_refused : ({ w := true, sz := 0b11, off := 0x14, wdata := 0 } : Transaction).wf = false := by decide
theorem test_misaligned_refused : ({ w := true, sz := 0b00, off := 0x15, wdata := 0x61 } : Transaction).wf = false := by decide
theorem test_reserved_offset_refused : ({ w := false, sz := 0b10, off := 0x0C, wdata := 0 } : Transaction).wf = false := by decide
theorem test_narrow_read_refused : ({ w := false, sz := 0b00, off := 0x14, wdata := 0 } : Transaction).wf = false := by decide
theorem test_narrow_write_elsewhere_refused : ({ w := true, sz := 0b01, off := 0x00, wdata := 0 } : Transaction).wf = false := by decide
theorem test_narrow_feed_accepted : ({ w := true, sz := 0b00, off := 0x14, wdata := 0x61 } : Transaction).wf = true := by decide

/-! ## Decoding: each operation's pattern of 30_encoding.md rule R68, written out bit by bit -/

theorem test_decode_qntInRd : decodeTableWord 16 0b010000000 = some .qntInRd := by decide
theorem test_decode_qntOutRd : decodeTableWord 16 0b010000100 = some .qntOutRd := by decide
theorem test_decode_qntStatusRd : decodeTableWord 16 0b010001000 = some .qntStatusRd := by decide
theorem test_decode_crcCtrlRd : decodeTableWord 16 0b010010000 = some .crcCtrlRd := by decide
theorem test_decode_crcDataRd : decodeTableWord 16 0b010010100 = some .crcDataRd := by decide
theorem test_decode_crcStateRd : decodeTableWord 16 0b010011000 = some .crcStateRd := by decide
theorem test_decode_crcResultRd : decodeTableWord 16 0b010011100 = some .crcResultRd := by decide
/-- WDATA[31:8] is ignored (rule R67): the vector `wr8 CRC_DATA, 0xFFFFFF61`. -/
theorem test_decode_crcDataWr8 : decodeTransaction (.ofDescriptor 0b100010100 0xFFFFFF61) = some (.crcDataWr8 0x61) := by decide
/-- WDATA[31:16] is ignored (rule R67): the vector `wr16 CRC_DATA, 0xFFFF3231`. -/
theorem test_decode_crcDataWr16 : decodeTransaction (.ofDescriptor 0b101010100 0xFFFF3231) = some (.crcDataWr16 0x3231) := by decide
theorem test_decode_qntInWr : decodeTransaction (.ofDescriptor 0b110000000 0xBF800000) = some (.qntInWr 0xBF800000) := by decide
theorem test_decode_qntOutWr : decodeTransaction (.ofDescriptor 0b110000100 0x1234) = some (.qntOutWr 0x1234) := by decide
theorem test_decode_qntStatusWr : decodeTransaction (.ofDescriptor 0b110001000 0x3) = some (.qntStatusWr 0x3) := by decide
theorem test_decode_crcCtrlWr : decodeTransaction (.ofDescriptor 0b110010000 0x1) = some (.crcCtrlWr 0x1) := by decide
theorem test_decode_crcDataWr32 : decodeTransaction (.ofDescriptor 0b110010100 0x444E4549) = some (.crcDataWr32 0x444E4549) := by decide
theorem test_decode_crcStateWr : decodeTransaction (.ofDescriptor 0b110011000 0x641C1F5C) = some (.crcStateWr 0x641C1F5C) := by decide
theorem test_decode_crcResultWr : decodeTransaction (.ofDescriptor 0b110011100 0) = some (.crcResultWr 0) := by decide

/-- The bus-error vectors of 95_test_vectors.md section 4. -/
theorem test_decode_errors :
    [0x115, 0x08C, 0x1A0, 0x0BC, 0x140, 0x118, 0x014, 0x1D4, 0x0E1, 0x021, 0x14C].map decodeError =
      [some .errAlign, some .errUnmapped, some .errUnmapped, some .errUnmapped, some .errSize, some .errSize,
        some .errSize, some .errSize, some .errSize, some .errAlign, some .errUnmapped] := by decide

/-- The field's places in the descriptor (rule R60): 0x154 is W = 1, SZ = 01, OFF = 0x14. -/
theorem test_descriptor_fields :
    Transaction.ofDescriptor 0x154 0x3231 = { w := true, sz := 0b01, off := 0x14, wdata := 0x3231 } := by decide

theorem test_encode_crcDataWr8 :
    encode (.crcDataWr8 0x61) = { w := true, sz := 0b00, off := 0x14, wdata := 0x00000061 } := by decide

/-! ## The conversion: the table of 95_test_vectors.md section 2 -/

/-- Pattern, value, CLAMP, NAN under HALF_UP. -/
def conversionAgrees (r : Word × Half × Bool × Bool) : Bool :=
  quantize .halfUp r.1 == { value := r.2.1, clamp := r.2.2.1, nan := r.2.2.2 }

theorem test_conversion_ordinary :
  [(0x00000000, 0x0000, false, false), (0x80000000, 0x0000, false, false), (0x3F800000, 0x7FFF, false, false),
   (0xBF800000, 0x8000, false, false), (0x3F000000, 0x4000, false, false), (0xBF000000, 0xC000, false, false),
   (0x3F400000, 0x5FFF, false, false), (0xBF400000, 0xA000, false, false), (0x3E800000, 0x2000, false, false),
   (0xBE800000, 0xE000, false, false), (0x3DCCCCCD, 0x0CCD, false, false), (0xBDCCCCCD, 0xF333, false, false)].all conversionAgrees = true := by decide

theorem test_conversion_ties_and_edges :
  [(0x38000000, 0x0001, false, false), (0xB8000000, 0xFFFF, false, false), (0x37800000, 0x0000, false, false),
   (0xB7800000, 0x0000, false, false), (0xB8400000, 0xFFFF, false, false), (0x38400000, 0x0001, false, false),
   (0x3F7FFFFF, 0x7FFF, false, false), (0xBF7FFFFF, 0x8000, false, false), (0x3F7FFF00, 0x7FFF, false, false),
   (0x3F800001, 0x7FFF, true, false), (0xBF800001, 0x8000, true, false), (0x40000000, 0x7FFF, true, false)].all conversionAgrees = true := by decide

theorem test_conversion_special :
  [(0xC0000000, 0x8000, true, false), (0x7F7FFFFF, 0x7FFF, true, false), (0x7F800000, 0x7FFF, true, false),
   (0xFF800000, 0x8000, true, false), (0x00000001, 0x0000, false, false), (0x80000001, 0x0000, false, false),
   (0x007FFFFF, 0x0000, false, false), (0x7FC00000, 0x0000, false, true), (0xFFC00000, 0x0000, false, true),
   (0x7F800001, 0x0000, false, true), (0xFFFFFFFF, 0x0000, false, true)].all conversionAgrees = true := by decide

/-- The tie-rule variants of section 2. -/
theorem test_tie_variants :
    ([0x3F000000, 0xB7800000, 0xB8400000].map fun b =>
      ((quantize .halfUp b).value, (quantize .halfAway b).value, (quantize .halfEven b).value)) =
    ([(0x4000, 0x4000, 0x4000), (0x0000, 0xFFFF, 0x0000), (0xFFFF, 0xFFFE, 0xFFFE)] : List (Half × Half × Half)) := by decide

/-! ## The byte step: the tables of 95_test_vectors.md section 3 -/

theorem test_crc_byte_strings :
  ([([0x00], 0x2DFD1072, 0xD202EF8D),
   ([0xFF], 0x00FFFFFF, 0xFF000000),
   ([0x61], 0x174841BC, 0xE8B7BE43),
   ([0x61, 0x62, 0x63], 0xCADBBE3D, 0x352441C2),
   ([0x31, 0x32, 0x33, 0x34, 0x35, 0x36, 0x37, 0x38, 0x39], 0x340BC6D9, 0xCBF43926),
   ([0x31, 0x32, 0x33, 0x34], 0x641C1F5C, 0x9BE3E0A3),
   ([0x49, 0x45, 0x4E, 0x44], 0x51BD9F7D, 0xAE426082),
   ([0x49, 0x44, 0x41, 0x54], 0xCA50F9E1, 0x35AF061E),
   ([0x49, 0x48, 0x44, 0x52, 0x00, 0x00, 0x01, 0xE0, 0x00, 0x00, 0x01, 0x68, 0x08, 0x06, 0x00, 0x00, 0x00], 0x70C8D7DF, 0x8F372820),
   ([0x00, 0x00, 0x00, 0x00], 0xDEBB20E3, 0x2144DF1C),
   ([0xFF, 0xFF, 0xFF, 0xFF], 0x00000000, 0xFFFFFFFF)] : List (List Byte × Word × Word)).all
    (fun r => crcBytes 0xFFFFFFFF r.1 == r.2.1 && crc32 r.1 == r.2.2) = true := by decide +kernel

theorem test_crc_single_steps :
    (crcByte 0x00000000 0x00, crcByte 0x00000000 0x01, crcByte 0x00000000 0x61, crcByte 0x12345678 0x00,
      crcByte 0xFFFFFFFF 0xFF) = (0x00000000, 0x77073096, 0x3AB551CE, 0x5ECCCD58, 0x00FFFFFF) := by decide

/-! ## One step of each operation -/

/-- `wr32 QNT_IN, 0x3F000000` with CLAMP already set: the flag stays (section 2, flag and register vectors). -/
theorem test_qntInWr_sticky :
    registersAfter (.qntInWr 0x3F000000) { State.reset with qntStatus := { clamp := true, nan := false } } =
      some { crcState := 0xFFFFFFFF, qntIn := 0x3F000000, qntOut := 0x4000, qntStatus := { clamp := true, nan := false } } := by decide
/-- `wr32 QNT_IN, 0x7FC00001` from reset. -/
theorem test_qntInWr_nan :
    registersAfter (.qntInWr 0x7FC00001) State.reset =
      some { crcState := 0xFFFFFFFF, qntIn := 0x7FC00001, qntOut := 0x0000, qntStatus := { clamp := false, nan := true } } := by decide
/-- A block built with QNT_TIE = HALF_AWAY gives 0xFFFF for -2^-16 (section 2, tie-rule variants). -/
theorem test_qntInWr_halfAway :
    (answered (exec (.qntInWr 0xB7800000)
      (State.resetWith (parametersOf .halfAway)))).map
        (fun t => t.qntOut) = some 0xFFFF := by decide
/-- No NaN canonicalization (rule R87). -/
theorem test_qntInRd : answer .qntInRd { busy with qntIn := 0x7FC00001 } = some (.ok 0x7FC00001) := by decide
/-- Rule R88: after -0.5 the read gives 0xFFFFC000. -/
theorem test_qntOutRd_negative : answer .qntOutRd { busy with qntOut := 0xC000 } = some (.ok 0xFFFFC000) := by decide
theorem test_qntOutRd_positive : answer .qntOutRd { busy with qntOut := 0x7FFF } = some (.ok 0x00007FFF) := by decide
/-- Rule R89. -/
theorem test_qntOutWr : registersAfter (.qntOutWr 0x00001234) busy = some busy.toRegisters := by decide
/-- Rule R90: 2.0 from reset reads 1; program P3 reads 2 when NAN alone is set. -/
theorem test_qntStatusRd_clamp :
    answer .qntStatusRd { busy with qntStatus := { clamp := true, nan := false } } = some (.ok 0x00000001) := by decide
theorem test_qntStatusRd_nan :
    answer .qntStatusRd { busy with qntStatus := { clamp := false, nan := true } } = some (.ok 0x00000002) := by decide
/-- Rule R91: bits 31:2 are ignored, and each bit clears its own flag. -/
theorem test_qntStatusWr_reserved_bits : registersAfter (.qntStatusWr 0xFFFFFFFC) busy = some busy.toRegisters := by decide
theorem test_qntStatusWr_clears_nan :
    (answered (exec (.qntStatusWr 0x00000002) busy)).map (fun t => t.qntStatus) = some { clamp := true, nan := false } := by decide
theorem test_crcCtrlWr_init : crcAfter (.crcCtrlWr 0x00000003) afterA = some 0xFFFFFFFF := by decide
theorem test_crcCtrlWr_no_init : crcAfter (.crcCtrlWr 0xFFFFFFFE) afterA = some 0x174841BC := by decide
theorem test_crcCtrlRd : answer .crcCtrlRd busy = some (.ok 0) := by decide
theorem test_crcDataRd : answer .crcDataRd afterA = some (.ok 0) := by decide
theorem test_crcDataRd_feeds_nothing : crcAfter .crcDataRd afterA = some 0x174841BC := by decide
theorem test_crcDataWr8 : crcAfter (.crcDataWr8 0x61) State.reset = some 0x174841BC := by decide
/-- The second half of "1234" (section 3): from the register after "12". -/
theorem test_crcDataWr16_low_byte_first :
    (crcAfter (.crcDataWr16 0x3231) State.reset).bind
      (fun c => crcAfter (.crcDataWr16 0x3433) { State.reset with crcState := c }) = some 0x641C1F5C := by decide +kernel
theorem test_crcDataWr32_low_lane_first : crcAfter (.crcDataWr32 0x444E4549) State.reset = some 0x51BD9F7D := by decide +kernel
theorem test_crcDataWr32_not_high_lane_first : crcAfter (.crcDataWr32 0x49454E44) State.reset = some 0x32C70D37 := by decide +kernel
theorem test_crcStateWr : crcAfter (.crcStateWr 0x641C1F5C) busy = some 0x641C1F5C := by decide
theorem test_crcStateRd : answer .crcStateRd { busy with crcState := 0x340BC6D9 } = some (.ok 0x340BC6D9) := by decide
theorem test_crcResultRd : answer .crcResultRd { busy with crcState := 0x340BC6D9 } = some (.ok 0xCBF43926) := by decide
theorem test_crcResultWr : registersAfter (.crcResultWr 0) afterA = some afterA.toRegisters := by decide

/-! ## The step -/

/-- Program P5, transaction 2: `wr8 @0x15, 0x61` is ERR_ALIGN and leaves the state alone. -/
theorem test_step_bus_error :
    answered (step (busy.withFetchWord 48 0x00000061_0115)) = some { busy with responses := [.error .errAlign] } := by decide
/-- The first operation after reset is the fetched one: `wr32 QNT_IN, 0xBF800000` (rule R86, its example). -/
theorem test_step_fetches_from_reset :
    (answered (step (State.reset.withFetchWord 48 0xBF800000_0180))).map (fun t => t.qntOut) = some 0x8000 := by decide
/-- The reset vector of section 4. -/
theorem test_step_reset :
    answered (step { busy with pending := [.reset none] }) = some State.reset := by decide
/-- A transaction after a loss of power is refused (rule R161). -/
theorem test_step_refuses_before_reset :
    refusedBeforeReset (step { busy with phase := .unspecified, pending := [.transaction (encode .crcStateRd)] }) = true := by decide
/-- The window at an aligned base: a 2-byte write at base + 0x14 is `wr16 CRC_DATA`. -/
theorem test_bus_access :
    (busAccess (parametersOf .halfUp) true 0x54 2 0x3231).bind
      decodeTransaction = some (.crcDataWr16 0x3231) := by decide
/-- `crc32 v, "a"` expands to INIT, the byte and the read (rule R73). -/
theorem test_pseudo_crc32 :
    ((PseudoOp.crc32 [0x61]).expand.map fun h => decodeTransaction h.transaction) =
      [some (.crcCtrlWr 1), some (.crcDataWr8 0x61), some .crcResultRd] := by decide

/-! ## Witnesses: for each statement with hypotheses, concrete values that meet them all -/

/-- A busy machine with one event at the port. -/
def at1 (e : BusEvent) : State := { busy with pending := [e] }

theorem witness_ResetEventSetsEveryRegister :
    (at1 (.reset (some (encode .crcStateRd)))).pending = .reset (some (encode .crcStateRd)) :: [] := rfl

theorem witness_AccessBeforeResetRefused :
    (at1 .powerLoss).pending = .powerLoss :: [] ∧
      ({ at1 (.transaction (encode .crcStateRd)) with phase := .unspecified } : State).pending =
        .transaction (encode .crcStateRd) :: [] := by decide

theorem witness_StepRunsDecodedOperation :
    (at1 (.transaction (encode (.qntInWr 0xBF800000)))).pending = [.transaction (encode (.qntInWr 0xBF800000))] ∧
      busy.phase = .operating ∧ decodeTransaction (encode (.qntInWr 0xBF800000)) = some (.qntInWr 0xBF800000) := by decide

/-- A malformed transaction (D = 0x115) with a well-formed one behind it. -/
theorem witness_BusErrorWritesNoState :
    busy.phase = .operating ∧ decodeError 0x115 = some .errAlign ∧
      ({ busy with pending := [.transaction (.ofDescriptor 0x115 0), .transaction (encode .crcStateRd)] } : State).pending =
        .transaction (.ofDescriptor 0x115 0) :: .transaction (encode .crcStateRd) :: [] ∧
      decodeTransaction (encode .crcStateRd) = some .crcStateRd := by decide

/-- Both kinds of transaction, a write and an ill-formed one. -/
theorem witness_EveryTransactionGetsOneResponse :
    busy.phase = .operating ∧ (encode (.crcDataWr8 0x61)).wf = true ∧ (encode (.crcDataWr8 0x61)).w = true ∧
      (Transaction.ofDescriptor 0x115 0).wf = false := by decide

theorem witness_TransactionsComposeInArrivalOrder :
    busy.phase = .operating ∧ decodeTransaction (encode (.crcDataWr8 1)) = some (.crcDataWr8 1) ∧
      decodeError 0x115 = some .errAlign ∧
      ({ busy with pending := [.transaction (encode (.crcDataWr8 1)), .transaction (encode .crcStateRd)] } : State).pending =
        [encode (.crcDataWr8 1)].map .transaction ++ [.transaction (encode .crcStateRd)] := by decide

/-- Parameters that differ in all but QNT_TIE, and CRCQ's own value of it. -/
theorem witness_MachineTakesTheParameters :
    ({ crcqBase := 0, busProtocol := parallelBus, accessLatency := 9, resetKind := .synchronous, qntTie := .halfUp } :
      Config.Parameters).qntTie = (parametersOf .halfUp).qntTie ∧ State.reset.qntTie = .halfUp := by decide

/-- A step that answers; an operation that is not QNT_IN_WR; and a sample whose result does depend on the tie rule. -/
theorem witness_QntTieActsOnlyOnConversions :
    (answered (step (at1 (.transaction (encode (.crcDataWr8 1)))))).isSome = true ∧
      (answered (exec (.crcDataWr8 1) busy)).isSome = true ∧ (∀ v, Instr.crcDataWr8 1 ≠ .qntInWr v) ∧
      (answered (exec (.qntInWr 0xB7800000) busy)).map (fun t => t.qntOut) = some 0x0000 ∧
      (quantize .halfAway 0xB7800000).value = 0xFFFF :=
  ⟨by decide, by decide, nofun, by decide, by decide⟩

/-- One descriptor for each clause: 0x1D4, 0x021, 0x14C, 0x140 and 0x114 (95_test_vectors.md section 4). -/
theorem witness_DecodeChecksInSpecOrder :
    (Transaction.ofDescriptor 0x1D4 0).sizeDefined = false ∧
      ((Transaction.ofDescriptor 0x021 0).sizeDefined = true ∧ (Transaction.ofDescriptor 0x021 0).aligned = false) ∧
      ((Transaction.ofDescriptor 0x14C 0).sizeDefined = true ∧ (Transaction.ofDescriptor 0x14C 0).aligned = true ∧
        (Transaction.ofDescriptor 0x14C 0).mapped = false) ∧
      ((Transaction.ofDescriptor 0x140 0).sizeDefined = true ∧ (Transaction.ofDescriptor 0x140 0).aligned = true ∧
        (Transaction.ofDescriptor 0x140 0).mapped = true ∧ (Transaction.ofDescriptor 0x140 0).sizePermitted = false) ∧
      (Transaction.ofDescriptor 0x114 0).wf = true := by decide

theorem witness_TableWordsDecode : decodeTableWord 16 0x19C = some (.crcResultWr 0) := by decide

/-- Each size a write can have, at the first and last bit of its lanes. -/
theorem witness_DecodeAndEncodeAgree :
    decodeTransaction (.ofDescriptor 0x114 0x81) = some (.crcDataWr8 0x81) ∧ nbytes 0b00 = some 1 ∧
      decodeTransaction (.ofDescriptor 0x154 0x8001) = some (.crcDataWr16 0x8001) ∧ nbytes 0b01 = some 2 ∧
      decodeTransaction (.ofDescriptor 0x198 0x80000001) = some (.crcStateWr 0x80000001) ∧ nbytes 0b10 = some 4 := by decide

/-- The "Exceptions" clause of the operations that accept 4 bytes only: a 2-byte write of QNT_IN (vector 0x140), a 1-byte
write of CRC_STATE (0x118) and a 1-byte read of CRC_DATA (0x014). -/
theorem witness_IsFourByteOperation :
    ((Transaction.ofDescriptor 0x140 0).w = (0x180#9).getLsbD 8 ∧
        (Transaction.ofDescriptor 0x140 0).off = (0x180#9).extractLsb' 0 6 ∧ (Transaction.ofDescriptor 0x140 0).sz ≠ 0b10) ∧
      ((Transaction.ofDescriptor 0x118 0).w = (0x198#9).getLsbD 8 ∧
        (Transaction.ofDescriptor 0x118 0).off = (0x198#9).extractLsb' 0 6 ∧ (Transaction.ofDescriptor 0x118 0).sz ≠ 0b10) ∧
      ((Transaction.ofDescriptor 0x014 0).w = (0x094#9).getLsbD 8 ∧
        (Transaction.ofDescriptor 0x014 0).off = (0x094#9).extractLsb' 0 6 ∧
        (Transaction.ofDescriptor 0x014 0).sz ≠ 0b10) := by decide

theorem witness_HalfUpIsFloorOfPlusHalf :
    clampSample (unpackSample 0xB7800000) = some (-(2 ^ 133)) ∧ clampSample (unpackSample 0xFF800000) = some (-(2 ^ 149)) := by
  decide

/-- The smallest and the largest tie: s = -2^-16 (j = 0) and s = -65535 * 2^-16 (j = 32767); and two tie rules that
differ on the first. -/
theorem witness_TieRuleMattersOnlyOnNegativeOddHalves :
    (expField 0xB7800000 ≠ 0xFF ∧ sampleValue 0xB7800000 = -(2 * (0 : Nat) + 1) / 2 ^ 16) ∧
      (expField 0xBF7FFF00 ≠ 0xFF ∧ sampleValue 0xBF7FFF00 = -(2 * (32767 : Nat) + 1) / 2 ^ 16) ∧
      quantize .halfUp 0xB7800000 ≠ quantize .halfAway 0xB7800000 := by
  have e1 : expField 0xB7800000 = 111 := by decide
  have e2 : expField 0xBF7FFF00 = 126 := by decide
  have f1 : fracField 0xB7800000 = 0 := by decide
  have f2 : fracField 0xBF7FFF00 = 0x7FFF00 := by decide
  have s1 : signField 0xB7800000 = true := by decide
  have s2 : signField 0xBF7FFF00 = true := by decide
  refine ⟨⟨by decide, ?_⟩, ⟨by decide, ?_⟩, by decide⟩
  · norm_num [sampleValue, e1, f1, s1]
  · norm_num [sampleValue, e2, f2, s2]

/-- The one operation that changes QNT_OUT, changing it. -/
theorem witness_QntOutWriteIgnored :
    (answered (exec (.qntInWr 0xBF800000) State.reset)).map (fun t => t.qntOut) = some 0x8000 ∧
      State.reset.qntOut = 0x0000 := by decide

/-- The ends of both NaN ranges. -/
theorem witness_NanGivesZeroAndNanFlag :
    [0x7F800001, 0x7FFFFFFF, 0xFF800001, 0xFFFFFFFF].all (fun b : Word =>
      (decide (0x7F800001 ≤ b.toNat) && decide (b.toNat ≤ 0x7FFFFFFF)) ||
        (decide (0xFF800001 ≤ b.toNat) && decide (b.toNat ≤ 0xFFFFFFFF))) = true := by decide

/-- Both signs, at the first clamped pattern and at the infinities; 1.0 itself and the first NaN are not clamped. -/
theorem witness_ClampExactlyBeyondOne :
    ([0x3F800001, 0xBF800001, 0x7F800000, 0xFF800000].all fun b => (quantize .halfUp b).clamp) = true ∧
      ([0x3F800000, 0xBF800000, 0x7F800001].any fun b => (quantize .halfUp b).clamp) = false := by decide

/-- A negative and a non-negative clamped value, at both ends of the interval. -/
theorem witness_ConversionNeverWraps :
    clampSample (unpackSample 0xC0000000) = some (-unitsPerOne) ∧ clampSample (unpackSample 0x80000001) = some (-1) ∧
      clampSample (unpackSample 0x80000000) = some 0 ∧ clampSample (unpackSample 0x7F800000) = some unitsPerOne := by decide

theorem witness_ConversionIsMonotone :
    (unpackSample 0xFF800000).le (unpackSample 0xBF800001) ∧ (unpackSample 0x80000001).le (unpackSample 0x00000000) ∧
      (unpackSample 0x7F7FFFFF).le (unpackSample 0x7F800000) := by
  have h1 : unpackSample 0xFF800000 = .infinite true := by decide
  have h2 : unpackSample 0xBF800001 = .finite (-((2 ^ 23 + 1) * 2 ^ 126)) := by decide
  have h3 : unpackSample 0x80000001 = .finite (-1) := by decide
  have h4 : unpackSample 0x00000000 = .finite 0 := by decide
  have h5 : unpackSample 0x7F7FFFFF = .finite ((2 ^ 24 - 1) * 2 ^ 253) := by decide
  have h6 : unpackSample 0x7F800000 = .infinite false := by decide
  rw [h1, h2, h3, h4, h5, h6]
  simp [Sample.le]

theorem witness_ProductFitsThirtyNineBits : clampSample (unpackSample 0x3F7FFF00) = some (0xFFFF00 * 2 ^ 125) := by decide

/-- Both zeros and the largest subnormal of either sign. -/
theorem witness_ZerosAndSubnormalsGiveZero :
    [0x00000000, 0x80000000, 0x007FFFFF, 0x807FFFFF].all (fun b : Word => decide (b.toNat % 2 ^ 31 < 2 ^ 23)) = true := by decide

theorem witness_CrcCtrlWriteInitializes :
    (0xFFFFFFFF#32).getLsbD 0 = true ∧ (0xFFFFFFFE#32).getLsbD 0 = false := by decide

/-- A 1-byte write at a mapped aligned offset, at a misaligned one and at a reserved one. -/
theorem witness_CrcDataWrite8FeedsOneByte :
    [0x118, 0x115, 0x10C].all (fun d : BitVec 9 =>
      (Transaction.ofDescriptor d 0).w && (Transaction.ofDescriptor d 0).sz == 0b00 &&
        (Transaction.ofDescriptor d 0).off != 0x14) = true ∧
      ((Transaction.ofDescriptor 0x118 0).aligned = true ∧ (Transaction.ofDescriptor 0x118 0).mapped = true) ∧
      (Transaction.ofDescriptor 0x115 0).aligned = false ∧
      (Transaction.ofDescriptor 0x10C 0).aligned = true ∧ (Transaction.ofDescriptor 0x10C 0).mapped = false := by decide

theorem witness_CrcDataWrite32FeedsLowByteFirst :
    (Transaction.ofDescriptor 0x1D4 0).w = true ∧ (Transaction.ofDescriptor 0x1D4 0).off = 0x14 := by decide

/-- The mixed-width feed of program P1b's first bytes, at the port. -/
theorem witness_ChecksumOfAnyFeed :
    let feeds : List PseudoOp := [.crcW 0x34333231, .crcH 0x3635, .crcBytes [0x37], .crcB 0x38]
    let s : State := { busy with pending := hostEvents ([.crcInit] ++ feeds ++ [.crcGet, .crcSave]) }
    s.phase = .operating ∧ feeds.map PseudoOp.fedBytes = [[0x31, 0x32, 0x33, 0x34], [0x35, 0x36], [0x37], [0x38]].map some ∧
      s.pending = hostEvents ([.crcInit] ++ feeds ++ [.crcGet, .crcSave]) := by decide

/-- Stream "12" interrupted after "1" by a 4-byte feed of "IEND". -/
theorem witness_SavedStreamResumesExactly :
    let events := hostEvents [.crcInit, .crcBytes [0x31], .crcSave] ++ [encode (.crcDataWr32 0x444E4549)].map .transaction ++
      hostEvents [.crcRestore (crcBytes 0xFFFFFFFF [0x31]), .crcBytes [0x32], .crcGet]
    let s : State := { busy with pending := events }
    s.phase = .operating ∧ s.pending = events := ⟨rfl, rfl⟩

theorem witness_UnitsShareNoState :
    (Instr.crcStateWr 7).functionalUnit = .crc ∧ (Instr.qntInWr 7).functionalUnit = .qnt ∧
      busy.crcState = { busy with qntIn := 1, qntOut := 2 }.crcState ∧
      busy.qntTie = { busy with crcState := 0 }.qntTie ∧
      busy.toRegisters.SameQnt { busy with crcState := 0 }.toRegisters := by decide

theorem witness_UnitStreamsCommute :
    addressesCrc (encode (.crcDataWr8 1)) ∧ addressesQnt (encode (.qntInWr 0x3F800000)) ∧ busy.phase = .operating ∧
      Interleaving [encode (.crcDataWr8 1), encode .crcResultRd] [encode (.qntInWr 0x3F800000)]
        [encode (.crcDataWr8 1), encode (.qntInWr 0x3F800000), encode .crcResultRd] :=
  ⟨by decide, by decide, rfl, .left _ (.right _ (.left _ .nil))⟩

theorem witness_SideEffectsAndIdempotency :
    Instr.crcResultRd.isRead = true ∧ (1#32).getLsbD 0 = true ∧
      (at1 .powerLoss).toRegisters = busy.toRegisters := by decide

theorem witness_NoOperationEncodings :
    Instr.qntOutRd.isRead = true ∧ (0xFFFFFFFE#32).getLsbD 0 = false ∧ (0xFFFFFFFC#32).extractLsb' 0 2 = 0 := by decide

/-- A step that changes each register the statement names. -/
theorem witness_OnlyTheseOperationsWriteARegister :
    (crcAfter (.crcDataWr8 0x61) State.reset ≠ some State.reset.crcState) ∧
      (answered (exec (.qntInWr 0x40000000) State.reset)).map (fun t => (t.qntIn, t.qntOut, t.qntStatus.clamp)) =
        some (0x40000000, 0x7FFF, true) ∧
      (answered (exec (.qntStatusWr 3) busy)).map (fun t => t.qntStatus) = some { clamp := false, nan := false } := by
  decide +kernel

theorem witness_FlagsAreSticky :
    (answered (step (at1 (.transaction (encode (.qntStatusWr 1)))))).map
        (fun t => (t.phase, t.qntStatus.clamp, t.qntStatus.nan)) = some (.operating, false, true) ∧
      (answered (step (at1 (.reset none)))).map (fun t => (t.phase, t.qntStatus.nan)) = some (.operating, false) := by
  decide

/-- busy satisfies the invariant with registers that are not the reset ones, and can step. -/
theorem witness_StepKeepsQntOutAConversion :
    QntOutIsConversion (at1 (.transaction (encode (.qntInWr 0xBF800000)))) ∧
      (answered (step (at1 (.transaction (encode (.qntInWr 0xBF800000)))))).map (fun t => t.qntOut) = some 0x8000 := by decide

/-- The first and the last byte of a window, and the addresses just outside it. -/
theorem witness_BusAccessIsOneTransaction :
    let p : Config.Parameters := parametersOf .halfUp
    p.Valid ∧ (p.crcqBase ≤ 0x40 ∧ 0x40 < p.crcqBase + 64) ∧ (p.crcqBase ≤ 0x7F ∧ 0x7F < p.crcqBase + 64) ∧
      0x3F < p.crcqBase ∧ p.crcqBase + 64 ≤ 0x80 := ⟨parametersOf_valid _, by decide⟩

/-- A valid handshake and a read at the port; another WDATA in the read gives a transaction with the same fields. -/
theorem witness_BusProtocolCarriesEveryExchange :
    (parametersOf .halfUp).Valid ∧
      (at1 (.transaction (encode .crcStateRd))).pending = .transaction (encode .crcStateRd) :: [] ∧
      busy.phase = .operating ∧
      (Transaction.ofDescriptor 0x098 0xFFFFFFFF).SameFields (encode .crcStateRd) ∧
      Transaction.ofDescriptor 0x098 0xFFFFFFFF ≠ encode .crcStateRd :=
  ⟨parametersOf_valid _, rfl, rfl, by decide, by decide⟩

end Sys2Proof.Tests
end

section
/-! PROOFS. The scope of CRCQ (00_scope.md): its open parameters, the independence of its two units, and the bus a host
reaches it by. -/

namespace Sys2Proof.Machine

/-! ### The tie rule -/

/-- An operation other than QNT_IN_WR has the same effect under every tie rule. -/
theorem effectOf_withTie {i : Instr} (hi : ∀ v, i ≠ .qntInWr v) (s : State) (tie : Config.QntTie) :
    effectOf i { s with qntTie := tie } = { effectOf i s with qntTie := tie } := by
  cases i with
  | qntInWr v => exact absurd rfl (hi v)
  | crcCtrlWr v =>
    simp only [effectOf]
    split <;> rfl
  | _ => rfl

/-- Read data depends on the registers alone. -/
theorem readDataOf_congr (i : Instr) {s s' : State} (h : s.toRegisters = s'.toRegisters) :
    readDataOf i s = readDataOf i s' := by
  cases i <;> simp only [readDataOf, State.readReg_congr h]

/-- No step changes the tie rule. -/
theorem step_qntTie {s s' : State} (h : step s = .next s') : s'.qntTie = s.qntTie := by
  cases step_cases h with
  | idle _ e => rw [e]
  | operation _ _ _ _ _ _ e => simp [e]
  | error _ _ _ _ _ _ e => simp [e]
  | reset _ _ _ e => simp [e]
  | powerLoss _ _ e => simp [e]

/-- An operation other than QNT_IN_WR does the same under every tie rule, its response included. -/
theorem exec_withTie {i : Instr} (hi : ∀ v, i ≠ .qntInWr v) {s t : State} (tie : Config.QntTie)
    (h : exec i s = .next t) : exec i { s with qntTie := tie } = .next { t with qntTie := tie } := by
  rw [exec_eq_next h, exec_eq, effectOf_withTie hi, readDataOf_congr i (s' := s) rfl]
  rfl

/-- The tie rule reaches the value of a conversion and neither indicator (41_quantizer.md rules R83, R85), so QNT_IN_WR
under another tie rule differs in QNT_OUT alone. -/
theorem exec_qntInWr_withTie {v : Word} {s t : State} (tie : Config.QntTie) (h : exec (.qntInWr v) s = .next t) :
    exec (.qntInWr v) { s with qntTie := tie } =
      .next { t with qntTie := tie, qntOut := (quantize tie v).value } := by
  rw [exec_eq_next h]
  rfl

/-- Settles O11: step inversion for the first clause, and the effect of each operation under another tie rule for the
others. -/
theorem qntTieActsOnlyOnConversions : Obligations.QntTieActsOnlyOnConversions :=
  ⟨fun _ _ => step_qntTie, fun _ _ _ tie hi h => exec_withTie hi tie h, fun _ _ _ tie h => exec_qntInWr_withTie tie h⟩

/-- Of the parameters the machine keeps QNT_TIE alone. -/
theorem machineWith_congr {p p' : Config.Parameters} (h : p.qntTie = p'.qntTie) : machineWith p = machineWith p' := by
  simp only [machineWith, State.resetWith, h]

/-- Built with HALF_UP, CRCQ's own tie rule, the machine is the one the host reads. -/
theorem machineWith_halfUp {p : Config.Parameters} (h : p.qntTie = .halfUp) : machineWith p = Sys2Proof.core := by
  simp only [machineWith, State.resetWith, h]
  rfl

/-- Settles O10: the machine is a function of QNT_TIE. -/
theorem machineTakesTheParameters : Obligations.MachineTakesTheParameters :=
  ⟨fun _ => ⟨rfl, rfl⟩, fun _ _ => machineWith_congr, fun _ => machineWith_halfUp⟩

/-! ### The two units -/

/-- A CRC operation writes no register of the quantizer. -/
theorem effectOf_sameQnt {i : Instr} (hi : i.functionalUnit = .crc) (s : State) :
    (effectOf i s).toRegisters.SameQnt s.toRegisters := by
  cases i with
  | qntInRd | qntOutRd | qntStatusRd | qntInWr | qntOutWr | qntStatusWr => cases hi
  | crcCtrlWr v =>
    simp only [effectOf]
    split <;> exact ⟨rfl, rfl, rfl⟩
  | _ => exact ⟨rfl, rfl, rfl⟩

/-- A quantizer operation does not write CRC_STATE. -/
theorem effectOf_crcState {i : Instr} (hi : i.functionalUnit = .qnt) (s : State) :
    (effectOf i s).crcState = s.crcState := by
  cases i with
  | qntInRd | qntOutRd | qntStatusRd | qntInWr | qntOutWr | qntStatusWr => rfl
  | _ => cases hi

/-- What a CRC operation makes of CRC_STATE depends on CRC_STATE alone. -/
theorem effectOf_crcState_congr {i : Instr} (hi : i.functionalUnit = .crc) {s s' : State}
    (h : s.crcState = s'.crcState) : (effectOf i s).crcState = (effectOf i s').crcState := by
  cases i with
  | qntInRd | qntOutRd | qntStatusRd | qntInWr | qntOutWr | qntStatusWr => cases hi
  | crcCtrlWr v =>
    simp only [effectOf]
    split
    · rfl
    · exact h
  | _ => simp [effectOf, h]

/-- The data a CRC read returns depends on CRC_STATE alone. -/
theorem readDataOf_crc_congr {i : Instr} (hi : i.functionalUnit = .crc) {s s' : State}
    (h : s.crcState = s'.crcState) : readDataOf i s = readDataOf i s' := by
  cases i with
  | qntInRd | qntOutRd | qntStatusRd | qntInWr | qntOutWr | qntStatusWr => cases hi
  | _ => simp [readDataOf, h]

/-- The two blocks agree in what a quantizer operation may read: the quantizer's registers and the parameter QNT_TIE. -/
structure State.SameQntUnit (s s' : State) : Prop where
  tie : s.qntTie = s'.qntTie
  regs : s.toRegisters.SameQnt s'.toRegisters

/-- What a quantizer operation makes of the quantizer's registers depends on these and QNT_TIE alone. -/
theorem effectOf_sameQntUnit {i : Instr} (hi : i.functionalUnit = .qnt) {s s' : State} (h : s.SameQntUnit s') :
    (effectOf i s).SameQntUnit (effectOf i s') := by
  obtain ⟨tie, hin, hout, hst⟩ := h
  refine ⟨by simp [tie], ?_⟩
  cases i with
  | qntInWr v => simp [effectOf, Registers.SameQnt, tie, hst]
  | qntInRd | qntOutRd | qntStatusRd | qntOutWr | qntStatusWr =>
    simp [effectOf, Registers.SameQnt, hin, hout, hst]
  | _ => cases hi

/-- The data a quantizer read returns depends on the quantizer's registers alone. -/
theorem readDataOf_qnt_congr {i : Instr} (hi : i.functionalUnit = .qnt) {s s' : State} (h : s.SameQntUnit s') :
    readDataOf i s = readDataOf i s' := by
  obtain ⟨_, hin, hout, hst⟩ := h
  cases i with
  | qntInRd | qntOutRd | qntStatusRd | qntInWr | qntOutWr | qntStatusWr => simp [readDataOf, hin, hout, hst]
  | _ => cases hi

/-- Settles O46: by the frame and the congruence of each unit's effects and read data. -/
theorem unitsShareNoState : Obligations.UnitsShareNoState := by
  refine ⟨fun i s s' hi h => ?_, fun i s s' hi h => ?_, fun i s1 s2 hi h => ?_, fun i s1 s2 hi htie hregs => ?_⟩
  · rw [exec_eq_next h]
    exact effectOf_sameQnt hi s
  · rw [exec_eq_next h]
    exact effectOf_crcState hi s
  · exact ⟨_, _, .ok (readDataOf i s1), exec_eq i s1, exec_eq i s2, effectOf_crcState_congr hi h, by simp,
      by simp [readDataOf_crc_congr hi h]⟩
  · have h : s1.SameQntUnit s2 := ⟨htie, hregs⟩
    exact ⟨_, _, .ok (readDataOf i s1), exec_eq i s1, exec_eq i s2, (effectOf_sameQntUnit hi h).regs, by simp,
      by simp [readDataOf_qnt_congr hi h]⟩

/-! ### What a transaction does to a block whose registers are specified -/

/-- The state a transaction leaves: the operation's, or the bus error's. -/
def afterTransaction (s : State) (t : Transaction) : State :=
  match decode t with
  | .ok i => (effectOf i s).complete (readDataOf i s)
  | .error c => s.busError c

theorem afterTransaction_ok {t : Transaction} {i : Instr} (h : decode t = .ok i) (s : State) :
    afterTransaction s t = (effectOf i s).complete (readDataOf i s) := by
  simp [afterTransaction, h]

theorem afterTransaction_error {t : Transaction} {c : BusErrorCause} (h : decode t = .error c) (s : State) :
    afterTransaction s t = s.busError c := by
  simp [afterTransaction, h]

theorem perform_eq (t : Transaction) {s : State} (h : s.phase = .operating) :
    perform t s = .next (afterTransaction s t) := by
  cases hd : decode t with
  | ok i => rw [perform_ok h hd, exec_eq, afterTransaction_ok hd]
  | error c => rw [perform_error h hd, afterTransaction_error hd]

@[simp] theorem afterTransaction_phase (s : State) (t : Transaction) : (afterTransaction s t).phase = s.phase := by
  cases hd : decode t with
  | ok i => simp [afterTransaction_ok hd]
  | error c => simp [afterTransaction_error hd]

/-- `perform` reads the fields of 30_encoding.md rule R60 and nothing else of a transaction. -/
theorem perform_congr {t t' : Transaction} (h : t.SameFields t') (s : State) : perform t s = perform t' s := by
  simp only [perform, decode_congr h]

/-- A transaction gets one response, and one that 30_encoding.md rule R60 allows it: RDATA is 0 for a write and for
ERR. -/
theorem afterTransaction_responses (s : State) (t : Transaction) :
    ∃ r : Response, (afterTransaction s t).responses = s.responses ++ [r] ∧
      (t.w = true ∨ r.resp = .err → r.rdata = 0) := by
  cases hd : decode t with
  | error c => exact ⟨.error c, by simp [afterTransaction_error hd], fun _ => rfl⟩
  | ok i =>
    obtain ⟨r, -, -, -, -, -, rfl⟩ := decode_eq_ok hd
    refine ⟨.ok (readDataOf (operationAt t r) s), by simp [afterTransaction_ok hd], ?_⟩
    rintro (hw | herr)
    · exact readDataOf_operationAt_write hw r s
    · cases herr

theorem performAll_cons_of_next {t : Transaction} {s s' : State} (ts : List Transaction) (h : perform t s = .next s') :
    performAll (t :: ts) s = performAll ts s' := by
  simp only [performAll, h]

theorem performAll_cons_of_refused {t : Transaction} {s : State} {r : Refusal} (ts : List Transaction)
    (h : perform t s = .refused r) : performAll (t :: ts) s = .refused r := by
  simp only [performAll, h]

theorem run_succ_of_refused {s : State} {r : Refusal} (n : Nat) (h : step s = .refused r) :
    Host.Core.run Sys2Proof.core (n + 1) s = .refused r := by
  have h' : Sys2Proof.core.step s = .refused r := h
  simp only [Host.Core.run, h']

/-- A block whose registers are specified performs any list of transactions to its end. -/
theorem performAll_eq (ts : List Transaction) {s : State} (h : s.phase = .operating) :
    performAll ts s = .next (ts.foldl afterTransaction s) := by
  induction ts generalizing s with
  | nil => rfl
  | cons t ts ih =>
    rw [performAll_cons_of_next ts (perform_eq t h), List.foldl_cons]
    exact ih (by simpa using h)

/-- 20_memory.md rule R49: the run over a queue of transactions is `performAll`, whatever waits behind them. -/
theorem run_eq_performAll (ts : List Transaction) {s : State} {rest : List BusEvent}
    (h : s.pending = ts.map .transaction ++ rest) :
    Host.Core.run Sys2Proof.core ts.length s = performAll ts (s.arrive rest) := by
  induction ts generalizing s with
  | nil =>
    have hs : s.arrive rest = s := by rw [← show s.pending = rest from h]; rfl
    rw [hs]
    rfl
  | cons t ts ih =>
    have hstep : step s = perform t (s.arrive (ts.map .transaction ++ rest)) := step_transaction h
    cases hp : s.phase with
    | unspecified =>
      have hperf : perform t (s.arrive rest) = .refused .beforeReset := perform_unspecified t hp
      exact (run_succ_of_refused _ (hstep.trans (perform_unspecified t hp))).trans
        (performAll_cons_of_refused ts hperf).symm
    | operating =>
      obtain ⟨s', hs', hpend, -, -⟩ := perform_next t (s := s.arrive (ts.map .transaction ++ rest)) hp
      have hrest : perform t (s.arrive rest) = .next (s'.arrive rest) :=
        perform_arrive t (s := s.arrive (ts.map .transaction ++ rest)) rest hp hs'
      exact (run_succ_of_next _ (hstep.trans hs')).trans
        ((ih hpend).trans (performAll_cons_of_next ts hrest).symm)

/-- The run of a block with nothing but the given transactions at its port. -/
theorem runsTo_foldl (ts : List Transaction) {s : State} (h : s.phase = .operating) :
    RunsTo { s with pending := ts.map .transaction } ts.length (ts.foldl afterTransaction (s.arrive [])) :=
  (run_eq_performAll ts (List.append_nil _).symm).trans (performAll_eq ts (s := s.arrive []) h)

/-! ### Streams to the two units -/

/-- The unit of an operation is the one whose group of offsets its transaction addresses (30_encoding.md rule R62). -/
theorem functionalUnit_of_decode {t : Transaction} {i : Instr} (h : decode t = .ok i) :
    i.functionalUnit = if addressesCrc t then .crc else .qnt := by
  obtain ⟨r, -, hoff, -, -, -, rfl⟩ := decode_eq_ok h
  simp only [addressesCrc, hoff]
  cases hw : t.w with
  | false => cases r <;> simp [operationAt, hw, Instr.functionalUnit, Reg.offset]
  | true =>
    cases r with
    | crcData =>
      simp only [operationAt, hw, if_true]
      split
      · rfl
      · split <;> rfl
    | _ => simp [operationAt, hw, Instr.functionalUnit, Reg.offset]

theorem functionalUnit_of_addressesCrc {t : Transaction} {i : Instr} (ha : addressesCrc t) (h : decode t = .ok i) :
    i.functionalUnit = .crc := by
  rw [functionalUnit_of_decode h, if_pos ha]

theorem functionalUnit_of_addressesQnt {t : Transaction} {i : Instr} (ha : addressesQnt t) (h : decode t = .ok i) :
    i.functionalUnit = .qnt := by
  rw [functionalUnit_of_decode h, if_neg (by simp [addressesCrc, ha])]

/-- A transaction to the quantizer's group leaves CRC_STATE. -/
theorem afterTransaction_crcState {t : Transaction} (ha : addressesQnt t) (s : State) :
    (afterTransaction s t).crcState = s.crcState := by
  cases hd : decode t with
  | error c => simp [afterTransaction_error hd]
  | ok i => simpa [afterTransaction_ok hd] using effectOf_crcState (functionalUnit_of_addressesQnt ha hd) s

/-- What a transaction to the CRC group makes of CRC_STATE depends on CRC_STATE alone. -/
theorem afterTransaction_crcState_congr {t : Transaction} (ha : addressesCrc t) {s s' : State}
    (h : s.crcState = s'.crcState) : (afterTransaction s t).crcState = (afterTransaction s' t).crcState := by
  cases hd : decode t with
  | error c => simpa [afterTransaction_error hd] using h
  | ok i => simpa [afterTransaction_ok hd] using effectOf_crcState_congr (functionalUnit_of_addressesCrc ha hd) h

/-- A transaction to the CRC group leaves all that the quantizer reads. -/
theorem afterTransaction_sameQntUnit {t : Transaction} (ha : addressesCrc t) (s : State) :
    (afterTransaction s t).SameQntUnit s := by
  cases hd : decode t with
  | error c =>
    rw [afterTransaction_error hd]
    exact ⟨rfl, rfl, rfl, rfl⟩
  | ok i =>
    rw [afterTransaction_ok hd]
    exact ⟨by simp, effectOf_sameQnt (functionalUnit_of_addressesCrc ha hd) s⟩

/-- What a transaction to the quantizer's group makes of the quantizer depends on the quantizer alone. -/
theorem afterTransaction_sameQntUnit_congr {t : Transaction} (ha : addressesQnt t) {s s' : State}
    (h : s.SameQntUnit s') : (afterTransaction s t).SameQntUnit (afterTransaction s' t) := by
  cases hd : decode t with
  | error c =>
    simp only [afterTransaction_error hd]
    exact ⟨h.tie, h.regs⟩
  | ok i =>
    simp only [afterTransaction_ok hd]
    have e := effectOf_sameQntUnit (functionalUnit_of_addressesQnt ha hd) h
    exact ⟨e.tie, e.regs⟩

theorem State.SameQntUnit.trans {s s' s'' : State} (h : s.SameQntUnit s') (h' : s'.SameQntUnit s'') :
    s.SameQntUnit s'' := by
  obtain ⟨tie, hin, hout, hst⟩ := h
  obtain ⟨tie', hin', hout', hst'⟩ := h'
  exact ⟨tie.trans tie', hin.trans hin', hout.trans hout', hst.trans hst'⟩

/-- One stream after the other is an interleaving of the two. -/
theorem Interleaving.append (xs ys : List Transaction) : Interleaving xs ys (xs ++ ys) := by
  induction xs with
  | cons x xs ih => exact .left x ih
  | nil =>
    induction ys with
    | nil => exact .nil
    | cons y ys ih => exact .right y ih

/-- An interleaving leaves the CRC_STATE that its CRC stream leaves. -/
theorem Interleaving.crcState_eq {crcs qnts zs : List Transaction} (h : Interleaving crcs qnts zs)
    (hc : ∀ t ∈ crcs, addressesCrc t) (hq : ∀ t ∈ qnts, addressesQnt t) {s s' : State}
    (e : s.crcState = s'.crcState) :
    (zs.foldl afterTransaction s).crcState = (crcs.foldl afterTransaction s').crcState := by
  induction h generalizing s s' with
  | nil => exact e
  | left t _ ih =>
    obtain ⟨ht, hc⟩ := List.forall_mem_cons.mp hc
    exact ih hc hq (afterTransaction_crcState_congr ht e)
  | right t _ ih =>
    obtain ⟨ht, hq⟩ := List.forall_mem_cons.mp hq
    exact ih hc hq ((afterTransaction_crcState ht s).trans e)

/-- An interleaving leaves the quantizer as its quantizer stream leaves it. -/
theorem Interleaving.sameQntUnit {crcs qnts zs : List Transaction} (h : Interleaving crcs qnts zs)
    (hc : ∀ t ∈ crcs, addressesCrc t) (hq : ∀ t ∈ qnts, addressesQnt t) {s s' : State} (e : s.SameQntUnit s') :
    (zs.foldl afterTransaction s).SameQntUnit (qnts.foldl afterTransaction s') := by
  induction h generalizing s s' with
  | nil => exact e
  | left t _ ih =>
    obtain ⟨ht, hc⟩ := List.forall_mem_cons.mp hc
    exact ih hc hq ((afterTransaction_sameQntUnit ht s).trans e)
  | right t _ ih =>
    obtain ⟨ht, hq⟩ := List.forall_mem_cons.mp hq
    exact ih hc hq (afterTransaction_sameQntUnit_congr ht e)

/-- CRC_STATE and the quantizer's registers are all the registers (10_state.md rule R22). -/
theorem Registers.eq_of_sameQnt {r r' : Registers} (hc : r.crcState = r'.crcState) (hq : r.SameQnt r') : r = r' := by
  obtain ⟨c, a, b, st⟩ := r
  obtain ⟨c', a', b', st'⟩ := r'
  obtain ⟨rfl, rfl, rfl⟩ := hq
  obtain rfl : c = c' := hc
  rfl

/-- Two interleavings of one pair of streams leave the same registers. -/
theorem Interleaving.toRegisters_eq {crcs qnts zs zs' : List Transaction} (h : Interleaving crcs qnts zs)
    (h' : Interleaving crcs qnts zs') (hc : ∀ t ∈ crcs, addressesCrc t) (hq : ∀ t ∈ qnts, addressesQnt t) (s : State) :
    (zs.foldl afterTransaction s).toRegisters = (zs'.foldl afterTransaction s).toRegisters := by
  have same : s.SameQntUnit s := ⟨rfl, rfl, rfl, rfl⟩
  obtain ⟨-, hin, hout, hst⟩ := h.sameQntUnit hc hq same
  obtain ⟨-, hin', hout', hst'⟩ := h'.sameQntUnit hc hq same
  exact Registers.eq_of_sameQnt ((h.crcState_eq hc hq rfl).trans (h'.crcState_eq hc hq rfl).symm)
    ⟨hin.trans hin'.symm, hout.trans hout'.symm, hst.trans hst'.symm⟩

/-- Settles O47: each unit ends as its own stream leaves it, in the given interleaving and in the one that is one stream
after the other. -/
theorem unitStreamsCommute : Obligations.UnitStreamsCommute := fun s crcs qnts zs hp hc hq h =>
  ⟨_, _, runsTo_foldl zs hp, runsTo_foldl (crcs ++ qnts) hp,
    h.toRegisters_eq (Interleaving.append crcs qnts) hc hq (s.arrive [])⟩

/-! ### The bus -/

/-- An access size has its size code (30_encoding.md rule R61). -/
theorem sizeCode_eq_some {n : Nat} (hn : n = 1 ∨ n = 2 ∨ n = 4) : ∃ sz, sizeCode n = some sz ∧ nbytes sz = some n := by
  rcases hn with rfl | rfl | rfl
  · exact ⟨0b00, rfl, rfl⟩
  · exact ⟨0b01, rfl, rfl⟩
  · exact ⟨0b10, rfl, rfl⟩

/-- An access in the window is the transaction of its size code, direction and offset. -/
theorem busAccess_inside {p : Config.Parameters} {addr n : Nat} {sz : BitVec 2} (hlo : p.crcqBase ≤ addr)
    (hhi : addr < p.crcqBase + 64) (hsz : sizeCode n = some sz) (write : Bool) (v : Word) :
    busAccess p write addr n v =
      some { w := write, sz := sz, off := BitVec.ofNat 6 (addr - p.crcqBase), wdata := if write then v else 0 } := by
  simp [busAccess, hlo, hhi, hsz]

/-- An access outside the window is not CRCQ's. -/
theorem busAccess_outside {p : Config.Parameters} {addr : Nat} (h : addr < p.crcqBase ∨ p.crcqBase + 64 ≤ addr)
    (write : Bool) (n : Nat) (v : Word) : busAccess p write addr n v = none :=
  if_neg (by omega)

/-- Settles O55: a window of 64 bytes fits the 6 bits of OFF, and its aligned base drops out modulo 64. -/
theorem busAccessIsOneTransaction : Obligations.BusAccessIsOneTransaction := by
  intro p write addr n v ⟨hbase, _, _⟩ hn
  refine ⟨fun hlo hhi => ?_, fun h => busAccess_outside h write n v⟩
  obtain ⟨sz, hsz, hbytes⟩ := sizeCode_eq_some hn
  have hoff : (BitVec.ofNat 6 (addr - p.crcqBase)).toNat = addr - p.crcqBase := by
    rw [BitVec.toNat_ofNat]
    omega
  exact ⟨_, busAccess_inside hlo hhi hsz write v, rfl, hbytes, hoff, hoff.trans (by omega), fun hw => if_pos hw⟩

/-- Settles O56: the block's one response is one that a valid handshake carries, and a step reads of its transaction the
fields of 30_encoding.md rule R60 only. -/
theorem busProtocolCarriesEveryExchange : Obligations.BusProtocolCarriesEveryExchange := by
  intro p s t rest ⟨_, hbus, _⟩ hpend hp
  have hperf : perform t (s.arrive rest) = .next (afterTransaction (s.arrive rest) t) := perform_eq t hp
  obtain ⟨r, hresp, hallowed⟩ := afterTransaction_responses (s.arrive rest) t
  refine ⟨_, r, (step_transaction hpend).trans hperf, hresp, hbus t r.resp r.rdata hallowed, fun t' hf => ?_⟩
  calc step { s with pending := .transaction t' :: rest }
      = perform t' (s.arrive rest) := step_transaction rfl
    _ = perform t (s.arrive rest) := perform_congr hf _
    _ = _ := hperf

end Sys2Proof.Machine
end

section
/-! PROOFS. The stored state of CRCQ (10_state.md): what reset gives it, which operation can write which register, how a
flag is cleared, and the invariant that QNT_OUT is the conversion of QNT_IN. -/

namespace Sys2Proof

/-! ### The transaction of QNT_STATUS_WR -/

theorem encode_qntStatusWr (v : Word) :
    encode (.qntStatusWr v) = { w := true, sz := 0b10, off := Reg.qntStatus.offset, wdata := v } := by
  have fields : (0x188 : BitVec 9).getLsbD 8 = true ∧ (0x188 : BitVec 9).extractLsb' 6 2 = 0b10 ∧
      (0x188 : BitVec 9).extractLsb' 0 6 = Reg.qntStatus.offset := by decide
  obtain ⟨hw, hsz, hoff⟩ := fields
  simp only [encode, Transaction.ofDescriptor, Instr.descriptor, Instr.wdata, hw, hsz, hoff]

/-- QNT_STATUS_WR is the write at QNT_STATUS, and its operand is the whole WDATA (30_encoding.md rule R67). -/
theorem operationAt_eq_qntStatusWr {t : Transaction} {r : Reg} {v : Word} (h : operationAt t r = .qntStatusWr v) :
    t.w = true ∧ r = .qntStatus ∧ t.wdata = v := by
  unfold operationAt at h
  split at h
  case isTrue hw =>
    cases r with
    | qntStatus => exact ⟨hw, rfl, Instr.qntStatusWr.inj h⟩
    | crcData =>
      simp only at h
      split at h
      · cases h
      · split at h <;> cases h
    | _ => cases h
  case isFalse => cases r <;> cases h

/-- Only its own encoding selects QNT_STATUS_WR: the register takes no size but 4 bytes (30_encoding.md rule R63). -/
theorem eq_encode_of_decode_qntStatusWr {t : Transaction} {v : Word} (h : decode t = .ok (.qntStatusWr v)) :
    t = encode (.qntStatusWr v) := by
  obtain ⟨r, -, hoff, -, -, hp, hi⟩ := decode_eq_ok h
  obtain ⟨hw, rfl, hv⟩ := operationAt_eq_qntStatusWr hi.symm
  have hsz : t.sz = 0b10 := hp.resolve_right fun ⟨_, h14⟩ => absurd (hoff.symm.trans h14) (by decide)
  rw [encode_qntStatusWr, ← hw, ← hsz, ← hoff, ← hv]

end Sys2Proof

namespace Sys2Proof.Machine

/-! ### Who writes a register -/

/-- Only QNT_IN_WR and QNT_STATUS_WR write a register of the quantizer; each other operation leaves all three. -/
theorem effectOf_sameQnt_cases (i : Instr) (s : State) :
    (∃ v, i = .qntInWr v) ∨ (∃ v, i = .qntStatusWr v) ∨ (effectOf i s).toRegisters.SameQnt s.toRegisters := by
  cases hu : i.functionalUnit with
  | crc => exact .inr (.inr (effectOf_sameQnt hu s))
  | qnt =>
    cases i with
    | qntInWr v => exact .inl ⟨v, rfl⟩
    | qntStatusWr v => exact .inr (.inl ⟨v, rfl⟩)
    | qntInRd | qntOutRd | qntStatusRd | qntOutWr => exact .inr (.inr ⟨rfl, rfl, rfl⟩)
    | _ => cases hu

/-- QNT_IN and QNT_OUT are written by QNT_IN_WR only. -/
theorem effectOf_sample_cases (i : Instr) (s : State) :
    (∃ v, i = .qntInWr v) ∨ ((effectOf i s).qntIn = s.qntIn ∧ (effectOf i s).qntOut = s.qntOut) := by
  rcases effectOf_sameQnt_cases i s with hw | ⟨v, rfl⟩ | ⟨hin, hout, -⟩
  · exact .inl hw
  · exact .inr ⟨rfl, rfl⟩
  · exact .inr ⟨hin, hout⟩

/-- The flags after an operation: QNT_IN_WR ORs indicators in, QNT_STATUS_WR clears, each other operation leaves them. -/
theorem effectOf_qntStatus_cases (i : Instr) (s : State) :
    (∃ v, i = .qntInWr v ∧ ∃ c n, (effectOf i s).qntStatus = s.qntStatus.accumulate c n) ∨
      (∃ v, i = .qntStatusWr v ∧ (effectOf i s).qntStatus = s.qntStatus.clear v) ∨
      (effectOf i s).qntStatus = s.qntStatus := by
  rcases effectOf_sameQnt_cases i s with ⟨v, rfl⟩ | ⟨v, rfl⟩ | ⟨-, -, hst⟩
  · exact .inl ⟨v, rfl, _, _, s.convertSample_qntStatus v⟩
  · exact .inr (.inl ⟨v, rfl, rfl⟩)
  · exact .inr (.inr hst)

/-- The five operations that can change CRC_STATE. -/
theorem crcState_writer {i : Instr} {s : State} (h : (effectOf i s).crcState ≠ s.crcState) :
    (∃ v, i = .crcCtrlWr v) ∨ (∃ b, i = .crcDataWr8 b) ∨ (∃ h, i = .crcDataWr16 h) ∨ (∃ v, i = .crcDataWr32 v) ∨
      ∃ v, i = .crcStateWr v := by
  cases i with
  | crcCtrlWr v => exact .inl ⟨v, rfl⟩
  | crcDataWr8 b => exact .inr (.inl ⟨b, rfl⟩)
  | crcDataWr16 hw => exact .inr (.inr (.inl ⟨hw, rfl⟩))
  | crcDataWr32 v => exact .inr (.inr (.inr (.inl ⟨v, rfl⟩)))
  | crcStateWr v => exact .inr (.inr (.inr (.inr ⟨v, rfl⟩)))
  | _ => exact absurd rfl h

theorem sample_writer {i : Instr} {s : State}
    (h : (effectOf i s).qntIn ≠ s.qntIn ∨ (effectOf i s).qntOut ≠ s.qntOut) : ∃ v, i = .qntInWr v := by
  rcases effectOf_sample_cases i s with hw | ⟨hin, hout⟩
  · exact hw
  · exact absurd h (by simp [hin, hout])

/-- Only a conversion sets a flag. -/
theorem flag_setter {i : Instr} {s : State}
    (h : (effectOf i s).qntStatus.clamp = true ∧ s.qntStatus.clamp = false ∨
      (effectOf i s).qntStatus.nan = true ∧ s.qntStatus.nan = false) : ∃ v, i = .qntInWr v := by
  rcases effectOf_qntStatus_cases i s with ⟨v, hi, -⟩ | ⟨v, -, hst⟩ | hst
  · exact ⟨v, hi⟩
  · exact absurd h (by simp +contextual [hst])
  · exact absurd h (by simp +contextual [hst])

/-- Only QNT_STATUS_WR clears a flag. -/
theorem flag_clearer {i : Instr} {s : State}
    (h : (effectOf i s).qntStatus.clamp = false ∧ s.qntStatus.clamp = true ∨
      (effectOf i s).qntStatus.nan = false ∧ s.qntStatus.nan = true) : ∃ v, i = .qntStatusWr v := by
  rcases effectOf_qntStatus_cases i s with ⟨v, -, c, n, hst⟩ | ⟨v, hi, -⟩ | hst
  · exact absurd h (by simp +contextual [hst])
  · exact ⟨v, hi⟩
  · exact absurd h (by simp +contextual [hst])

/-- Settles O50: each register's writers, read off the effect of the operation. -/
theorem onlyTheseOperationsWriteARegister : Obligations.OnlyTheseOperationsWriteARegister := by
  intro i s t h
  obtain rfl := exec_eq_next h
  exact ⟨by simp, by simp, by simp, ⟨readDataOf i s, by simp⟩, crcState_writer, sample_writer, flag_setter,
    flag_clearer⟩

/-! ### The sticky flags -/

/-- What a step into specified registers can do to the flags: a reset, the clearing write to QNT_STATUS, or an OR of
indicators (none of them set where no conversion runs). -/
theorem step_qntStatus_cases {s s' : State} (h : step s = .next s') (hp' : s'.phase = .operating) :
    (∃ o rest, s.pending = .reset o :: rest) ∨
      (∃ v rest, s.pending = .transaction (encode (.qntStatusWr v)) :: rest ∧ s'.qntStatus = s.qntStatus.clear v) ∨
      ∃ c n, s'.qntStatus = s.qntStatus.accumulate c n := by
  have keep {st : QntStatus} (e : st = s.qntStatus) : ∃ c n, st = s.qntStatus.accumulate c n :=
    ⟨false, false, by simp [e, QntStatus.accumulate]⟩
  cases step_cases h with
  | idle _ e => exact .inr (.inr (keep (by rw [e])))
  | operation t rest i hpend _ hd e =>
    subst e
    rcases effectOf_qntStatus_cases i (s.arrive rest) with ⟨_, -, c, n, hst⟩ | ⟨v, rfl, hst⟩ | hst
    · exact .inr (.inr ⟨c, n, hst⟩)
    · exact .inr (.inl ⟨v, rest, eq_encode_of_decode_qntStatusWr hd ▸ hpend, hst⟩)
    · exact .inr (.inr (keep hst))
  | error _ _ _ _ _ _ e => exact .inr (.inr (keep (by simp [e])))
  | reset o rest hpend _ => exact .inl ⟨o, rest, hpend⟩
  | powerLoss _ _ e => simp [e] at hp'

/-- Settles O51: an OR of indicators clears nothing, and the clearing write clears a flag only with a 1 in its bit. -/
theorem flagsAreSticky : Obligations.FlagsAreSticky := by
  intro s s' h hp'
  rcases step_qntStatus_cases h hp' with hr | ⟨v, rest, hpend, hst⟩ | ⟨c, n, hst⟩
  · exact ⟨fun _ _ => .inl hr, fun _ _ => .inl hr⟩
  · exact ⟨fun h1 h0 => .inr ⟨v, rest, hpend, by simpa [hst, h1] using h0⟩,
      fun h1 h0 => .inr ⟨v, rest, hpend, by simpa [hst, h1] using h0⟩⟩
  · exact ⟨fun h1 h0 => by simp [hst, h1] at h0, fun h1 h0 => by simp [hst, h1] at h0⟩

/-! ### The quantizer's invariant -/

/-- Zero converts to 0 under every tie rule. -/
theorem quantize_zero_value (tie : Config.QntTie) : (quantize tie 0x00000000).value = 0x0000 := by
  have hclamp : clampSample (unpackSample 0x00000000) = some 0 := by decide
  have hround : quantizedInteger tie 0 = 0 := by cases tie <;> decide
  rw [quantize_value hclamp, hround]
  rfl

/-- A reset state of any tie rule has the invariant. -/
theorem applyReset_qntOutIsConversion (s : State) : QntOutIsConversion s.applyReset :=
  fun _ => (quantize_zero_value s.qntTie).symm

/-- An operation keeps the invariant: QNT_IN_WR writes the two registers together, no other writes either. -/
theorem effectOf_qntOutIsConversion (i : Instr) {s : State} (h : QntOutIsConversion s) :
    QntOutIsConversion (effectOf i s) := by
  rcases effectOf_sample_cases i s with ⟨v, rfl⟩ | ⟨hin, hout⟩
  · exact fun _ => rfl
  · simpa [QntOutIsConversion, hin, hout] using h

/-- Settles O53, by the inversion of the step. -/
theorem stepKeepsQntOutAConversion : Obligations.StepKeepsQntOutAConversion := by
  intro s s' hs h
  cases step_cases h with
  | idle _ e => exact e ▸ hs
  | operation t rest i _ _ _ e =>
    have harrive : QntOutIsConversion (s.arrive rest) := hs
    subst e
    exact effectOf_qntOutIsConversion i harrive
  | error t rest c _ _ _ e =>
    subst e
    exact hs
  | reset o rest _ e =>
    subst e
    exact applyReset_qntOutIsConversion _
  | powerLoss rest _ e =>
    subst e
    intro hp
    cases hp

/-! ### Reset -/

/-- Settles O54: zero converts to 0. -/
theorem resetQntOutIsConversion : Obligations.ResetQntOutIsConversion :=
  applyReset_qntOutIsConversion State.reset

/-- Settles O1: the values of 10_state.md rule R33, and the invariant at reset. -/
theorem resetValuesOfAllState : Obligations.ResetValuesOfAllState :=
  ⟨rfl, rfl, rfl, rfl, rfl, rfl, resetQntOutIsConversion rfl⟩

/-- Settles O2: the reset event is `applyReset` on the queue behind it. -/
theorem resetEventSetsEveryRegister : Obligations.ResetEventSetsEveryRegister :=
  fun _ _ _ hpend => step_reset hpend

end Sys2Proof.Machine
end

section
/-! PROOFS. Accesses to the register window (20_memory.md): which transactions are accepted, the one response of each,
the order in which they take effect, and which accesses have a side effect. -/

namespace Sys2Proof

/-! ### Accepted is well formed -/

/-- The aligned offsets that are not reserved are those of the mapped registers (30_encoding.md rules R62, R65). -/
theorem aligned_and_mapped_iff {t : Transaction} :
    (t.aligned = true ∧ t.mapped = true) ↔ ∃ r : Reg, t.off = r.offset := by
  have registered : ∀ off : BitVec 6,
      (off.toNat % 4 == 0 && !reservedOffsets.contains off.toNat) = (Reg.ofOffset off).isSome := by decide
  rw [← Bool.and_eq_true, Transaction.aligned, Transaction.mapped, registered, Option.isSome_iff_exists]
  exact exists_congr fun r => ⟨Reg.ofOffset_eq_some, fun h => h ▸ Reg.ofOffset_offset r⟩

/-- A defined size is permitted where it is 4 bytes or the access is a write to CRC_DATA (30_encoding.md rule R63). -/
theorem sizePermitted_iff {t : Transaction} (h : t.sz ≠ 0b11) :
    t.sizePermitted = true ↔ t.sz = 0b10 ∨ (t.w = true ∧ t.off = 0x14) := by
  have sizes : ∀ sz : BitVec 2, sz ≠ 0b11 → sz = 0b00 ∨ sz = 0b01 ∨ sz = 0b10 := by decide
  rcases sizes t.sz h with hsz | hsz | hsz <;> simp [Transaction.sizePermitted, hsz]

/-- The decoder accepts exactly the well-formed transactions. -/
theorem decode_ok_iff_wf {t : Transaction} : (∃ i, decode t = .ok i) ↔ t.wf = true := by
  simp only [Transaction.wf, Transaction.sizeDefined, Bool.and_eq_true, bne_iff_ne]
  constructor
  · rintro ⟨i, h⟩
    obtain ⟨r, -, hoff, hsz, -, hp, -⟩ := decode_eq_ok h
    obtain ⟨hal, hmap⟩ := aligned_and_mapped_iff.mpr ⟨r, hoff⟩
    exact ⟨⟨⟨hsz, hal⟩, hmap⟩, (sizePermitted_iff hsz).mpr hp⟩
  · rintro ⟨⟨⟨hsz, hal⟩, hmap⟩, hp⟩
    obtain ⟨r, hoff⟩ := aligned_and_mapped_iff.mp ⟨hal, hmap⟩
    exact ⟨_, decode_of_checks hsz hoff ((sizePermitted_iff hsz).mp hp)⟩

theorem wf_of_decode_ok {t : Transaction} {i : Instr} (h : decode t = .ok i) : t.wf = true :=
  decode_ok_iff_wf.mp ⟨i, h⟩

theorem not_wf_of_decode_error {t : Transaction} {c : BusErrorCause} (h : decode t = .error c) : t.wf = false := by
  refine Bool.eq_false_iff.mpr fun hwf => ?_
  obtain ⟨i, hi⟩ := decode_ok_iff_wf.mpr hwf
  cases h.symm.trans hi

end Sys2Proof

namespace Sys2Proof.Machine

/-! ### One response to each transaction -/

/-- The operation of an accepted write returns no data (30_encoding.md rule R60). -/
theorem readDataOf_of_decode_write {t : Transaction} {i : Instr} (hw : t.w = true) (hd : decode t = .ok i) (s : State) :
    readDataOf i s = 0 := by
  obtain ⟨r, -, -, -, -, -, rfl⟩ := decode_eq_ok hd
  exact readDataOf_operationAt_write hw r s

@[simp] theorem afterTransaction_pending (s : State) (t : Transaction) :
    (afterTransaction s t).pending = s.pending := by
  cases hd : decode t with
  | ok i => simp [afterTransaction_ok hd]
  | error c => simp [afterTransaction_error hd]

/-- Settles O5: the transaction leaves the queue, and `perform` is the decoded operation. -/
theorem stepRunsDecodedOperation : Obligations.StepRunsDecodedOperation :=
  fun s _ rest _ hpend hp hd => (step_transaction hpend).trans (perform_ok (s := s.arrive rest) hp hd)

/-- Settles O8: an accepted transaction is well formed and completes with OK, a rejected one is ill formed and is a bus
error. -/
theorem everyTransactionGetsOneResponse : Obligations.EveryTransactionGetsOneResponse := by
  intro s t rest hpend hp
  have hstep : step s = .next (afterTransaction (s.arrive rest) t) :=
    (step_transaction hpend).trans (perform_eq t (s := s.arrive rest) hp)
  cases hd : decode t with
  | ok i =>
    have hwf : t.wf = true := wf_of_decode_ok hd
    exact ⟨_, .ok (readDataOf i (s.arrive rest)), hstep, by simp, by simpa using hp, by simp [afterTransaction_ok hd],
      by simp [hwf], by simp [hwf], fun hw => readDataOf_of_decode_write hw hd _⟩
  | error c =>
    have hwf : t.wf = false := not_wf_of_decode_error hd
    exact ⟨_, .error c, hstep, by simp, by simpa using hp, by simp [afterTransaction_error hd], by simp [hwf],
      fun _ => by simp [afterTransaction_error hd], fun _ => rfl⟩

/-! ### Order of arrival -/

/-- No list of transactions disturbs what waits behind it. -/
theorem foldl_afterTransaction_pending (ts : List Transaction) (s : State) :
    (ts.foldl afterTransaction s).pending = s.pending := by
  induction ts generalizing s with
  | nil => rfl
  | cons t ts ih => exact (ih _).trans (afterTransaction_pending s t)

/-- Settles O9: the run over a queue is `performAll`, which completes with the registers specified. -/
theorem transactionsComposeInArrivalOrder : Obligations.TransactionsComposeInArrivalOrder :=
  ⟨fun s ts rest hpend => ⟨run_eq_performAll ts hpend, fun hp =>
      ⟨_, performAll_eq ts (s := s.arrive rest) hp, foldl_afterTransaction_pending ts (s.arrive rest)⟩⟩,
    fun _ _ hp => ⟨fun _ hd => perform_ok hp hd, fun _ hd => perform_error hp hd⟩⟩

/-! ### Side effects and idempotency -/

/-- A read writes nothing. -/
theorem effectOf_read {i : Instr} (hi : i.isRead = true) (s : State) : effectOf i s = s := by
  cases i with
  | qntInRd | qntOutRd | qntStatusRd | crcCtrlRd | crcDataRd | crcStateRd | crcResultRd => rfl
  | _ => cases hi

/-- A read answers with its read data and leaves the rest of the state. -/
theorem exec_read {i : Instr} (hi : i.isRead = true) (s : State) :
    exec i s = .next (s.complete (readDataOf i s)) := by
  rw [exec_eq, effectOf_read hi]

/-- The idempotent writes of 20_memory.md rule R47: the CRC loads overwrite, the conversion ORs the same indicators in
again, and a clear clears again. -/
theorem effectOf_complete_effectOf {i : Instr} {v : Word}
    (hi : (i = .crcCtrlWr v ∧ v.getLsbD 0 = true) ∨ i = .crcStateWr v ∨ i = .qntInWr v ∨ i = .qntStatusWr v)
    (s : State) (d : Word) : (effectOf i ((effectOf i s).complete d)).toRegisters = (effectOf i s).toRegisters := by
  rcases hi with ⟨rfl, hinit⟩ | rfl | rfl | rfl
  · simp only [effectOf, hinit, if_true]
    rfl
  · rfl
  · exact Registers.eq_of_sameQnt rfl ⟨rfl, rfl, QntStatus.accumulate_twice _ _ _⟩
  · exact Registers.eq_of_sameQnt rfl ⟨rfl, rfl, QntStatus.clear_twice _ _⟩

/-- Settles O48: reads answer from the registers alone and write nothing; the writes that overwrite, accumulate or clear
are idempotent; from the reset register a second feed of zero bytes changes CRC_STATE again, at each width. -/
theorem sideEffectsAndIdempotency : Obligations.SideEffectsAndIdempotency := by
  refine ⟨fun i s hi => ⟨readDataOf i s, exec_read hi s, fun s' h => ?_⟩, fun s v i hi => ?_, ?_, ?_, ?_⟩
  · rw [← readDataOf_congr i h]
    exact exec_read hi s'
  · exact ⟨_, _, exec_eq i s, exec_eq i _, effectOf_complete_effectOf hi s _⟩
  · exact ⟨State.reset, _, _, 0, rfl, rfl, by simp, by decide +kernel⟩
  · exact ⟨State.reset, _, _, 0, rfl, rfl, by decide +kernel⟩
  · exact ⟨State.reset, _, _, 0, rfl, rfl, by decide +kernel⟩

end Sys2Proof.Machine
end

section
/-! PROOFS. The encoding of the operations (30_encoding.md): the decoder and the encoder against each other and against
the table of rule R68, the operations that change no register, and the pseudo-instructions. -/

namespace Sys2Proof

/-! ### The operation of a descriptor and its operand -/

/-- The operation of the same row of the table with its operand assembled from the given WDATA (30_encoding.md rule
R67); a read has none. -/
def Instr.withWdata (i : Instr) (v : Word) : Instr :=
  match i with
  | .qntInRd => .qntInRd
  | .qntOutRd => .qntOutRd
  | .qntStatusRd => .qntStatusRd
  | .crcCtrlRd => .crcCtrlRd
  | .crcDataRd => .crcDataRd
  | .crcStateRd => .crcStateRd
  | .crcResultRd => .crcResultRd
  | .crcDataWr8 _ => .crcDataWr8 (v.extractLsb' 0 8)
  | .crcDataWr16 _ => .crcDataWr16 (v.extractLsb' 0 16)
  | .qntInWr _ => .qntInWr v
  | .qntOutWr _ => .qntOutWr v
  | .qntStatusWr _ => .qntStatusWr v
  | .crcCtrlWr _ => .crcCtrlWr v
  | .crcDataWr32 _ => .crcDataWr32 v
  | .crcStateWr _ => .crcStateWr v
  | .crcResultWr _ => .crcResultWr v

/-- The register an operation accesses (columns OFF of 30_encoding.md rules R62 and R68). -/
def Instr.reg : Instr → Reg
  | .qntInRd | .qntInWr _ => .qntIn
  | .qntOutRd | .qntOutWr _ => .qntOut
  | .qntStatusRd | .qntStatusWr _ => .qntStatus
  | .crcCtrlRd | .crcCtrlWr _ => .crcCtrl
  | .crcDataRd | .crcDataWr8 _ | .crcDataWr16 _ | .crcDataWr32 _ => .crcData
  | .crcStateRd | .crcStateWr _ => .crcState
  | .crcResultRd | .crcResultWr _ => .crcResult

/-- The size code of an operation (column SZ of 30_encoding.md rule R68): 4 bytes, but for the narrow feeds of
CRC_DATA. -/
def Instr.size : Instr → BitVec 2
  | .crcDataWr8 _ => 0b00
  | .crcDataWr16 _ => 0b01
  | .qntInRd | .qntOutRd | .qntStatusRd | .crcCtrlRd | .crcDataRd | .crcStateRd | .crcResultRd | .qntInWr _
  | .qntOutWr _ | .qntStatusWr _ | .crcCtrlWr _ | .crcDataWr32 _ | .crcStateWr _ | .crcResultWr _ => 0b10

/-- The number of bytes of the size code of an operation. -/
def Instr.accessBytes : Instr → Nat
  | .crcDataWr8 _ => 1
  | .crcDataWr16 _ => 2
  | .qntInRd | .qntOutRd | .qntStatusRd | .crcCtrlRd | .crcDataRd | .crcStateRd | .crcResultRd | .qntInWr _
  | .qntOutWr _ | .qntStatusWr _ | .crcCtrlWr _ | .crcDataWr32 _ | .crcStateWr _ | .crcResultWr _ => 4

theorem Instr.nbytes_size (i : Instr) : nbytes i.size = some i.accessBytes := by
  cases i <;> rfl

theorem Instr.size_ne_reserved (i : Instr) : i.size ≠ 0b11 := by
  cases i <;> simp [size]

theorem Instr.size_permitted (i : Instr) : i.size = 0b10 ∨ ((!i.isRead) = true ∧ i.reg.offset = 0x14) := by
  cases i with
  | crcDataWr8 | crcDataWr16 => exact .inr ⟨rfl, rfl⟩
  | _ => exact .inl rfl

/-- The descriptor column of 30_encoding.md rule R68 is made of the columns W, SZ and OFF. -/
theorem Instr.ofDescriptor_descriptor (i : Instr) (v : Word) :
    Transaction.ofDescriptor i.descriptor v = { w := !i.isRead, sz := i.size, off := i.reg.offset, wdata := v } := by
  cases i <;> simp [Transaction.ofDescriptor, descriptor, isRead, size, reg, Reg.offset]

/-- A descriptor of the table decodes to its operation, whatever the write data. -/
theorem decode_ofDescriptor_descriptor (i : Instr) (v : Word) :
    decode (Transaction.ofDescriptor i.descriptor v) = .ok (i.withWdata v) := by
  rw [i.ofDescriptor_descriptor v]
  refine (decode_of_checks (r := i.reg) i.size_ne_reserved rfl i.size_permitted).trans (congrArg Except.ok ?_)
  cases i <;> rfl

/-- An operand in the low lanes of WDATA, zeros above, is read back from these lanes. -/
theorem lowLanes_setWidth {n : Nat} (hn : n ≤ 32) (x : BitVec n) : (x.setWidth 32).extractLsb' 0 n = x := by
  rw [← BitVec.setWidth_eq_extractLsb' hn, BitVec.setWidth_setWidth_of_le x hn, BitVec.setWidth_eq]

/-- The lanes of the encoded operand hold the operand. -/
theorem Instr.withWdata_wdata (i : Instr) : i.withWdata i.wdata = i := by
  cases i with
  | crcDataWr8 b => exact congrArg Instr.crcDataWr8 (lowLanes_setWidth (by decide) b)
  | crcDataWr16 h => exact congrArg Instr.crcDataWr16 (lowLanes_setWidth (by decide) h)
  | _ => rfl

theorem decode_encode (i : Instr) : decode (encode i) = .ok i :=
  (decode_ofDescriptor_descriptor i i.wdata).trans (congrArg Except.ok i.withWdata_wdata)

/-! ### An accepted transaction is one of its operation -/

theorem Reg.eq_crcData_of_offset {r : Reg} (h : r.offset = 0x14) : r = .crcData := by
  have hr := Reg.ofOffset_offset r
  rw [h] at hr
  exact (Option.some.inj hr).symm

/-- The selected operation is in the row of the transaction's direction, register and size: a 4-byte access at any
register, or a feed of CRC_DATA of any size. -/
theorem operationAt_row {t : Transaction} {r : Reg} (hsz : t.sz ≠ 0b11)
    (hp : t.sz = 0b10 ∨ (t.w = true ∧ r.offset = 0x14)) :
    (operationAt t r).isRead = !t.w ∧ (operationAt t r).size = t.sz ∧ (operationAt t r).reg = r := by
  obtain ⟨w, sz, off, v⟩ := t
  rcases hp with hword | ⟨hw, h14⟩
  · obtain rfl : sz = 0b10 := hword
    cases w <;> cases r <;> exact ⟨rfl, rfl, rfl⟩
  · obtain rfl : w = true := hw
    obtain rfl := Reg.eq_crcData_of_offset h14
    have sizes : ∀ sz : BitVec 2, sz ≠ 0b11 → sz = 0b00 ∨ sz = 0b01 ∨ sz = 0b10 := by decide
    rcases sizes sz hsz with rfl | rfl | rfl <;> exact ⟨rfl, rfl, rfl⟩

/-- An accepted transaction is its operation's descriptor with its own write data. -/
theorem eq_ofDescriptor_of_decode {t : Transaction} {i : Instr} (h : decode t = .ok i) :
    t = Transaction.ofDescriptor i.descriptor t.wdata := by
  obtain ⟨r, -, hoff, hsz, -, hp, rfl⟩ := decode_eq_ok h
  obtain ⟨hread, hsize, hreg⟩ := operationAt_row hsz (hoff ▸ hp)
  rw [Instr.ofDescriptor_descriptor, hread, hsize, hreg, ← hoff, Bool.not_not]

theorem descriptor_of_decode {t : Transaction} {i : Instr} (h : decode t = .ok i) : i.descriptor = t.descriptor := by
  rw [eq_ofDescriptor_of_decode h, Transaction.descriptor_ofDescriptor]

/-- An accepted transaction's operand is assembled from its write data. -/
theorem eq_withWdata_of_decode {t : Transaction} {i : Instr} (h : decode t = .ok i) : i = i.withWdata t.wdata :=
  Except.ok.inj <| calc
    .ok i = decode t := h.symm
    _ = decode (Transaction.ofDescriptor i.descriptor t.wdata) := congrArg decode (eq_ofDescriptor_of_decode h)
    _ = .ok (i.withWdata t.wdata) := decode_ofDescriptor_descriptor i t.wdata

/-- The low n bits of WDATA with zeros above, bit by bit. -/
theorem getLsbD_setWidth_lowLanes {n : Nat} (hn : n ≤ 32) (v : Word) (k : Nat) :
    ((v.extractLsb' 0 n).setWidth 32).getLsbD k = (decide (k < n) && v.getLsbD k) := by
  rw [BitVec.getLsbD_setWidth, BitVec.getLsbD_extractLsb', Nat.zero_add]
  by_cases hk : k < n
  · simp [hk, Nat.lt_of_lt_of_le hk hn]
  · simp [hk]

/-- The encoding of a write holds WDATA in the lanes of the size and zeros above (30_encoding.md rule R67). -/
theorem Instr.wdata_withWdata {i : Instr} (hi : i.isRead = false) (v : Word) (k : Nat) :
    (i.withWdata v).wdata.getLsbD k = (decide (k < 8 * i.accessBytes) && v.getLsbD k) := by
  have word : v.getLsbD k = (decide (k < 32) && v.getLsbD k) := by
    simpa using getLsbD_setWidth_lowLanes (Nat.le_refl 32) v k
  cases i with
  | qntInRd | qntOutRd | qntStatusRd | crcCtrlRd | crcDataRd | crcStateRd | crcResultRd => cases hi
  | crcDataWr8 | crcDataWr16 => exact getLsbD_setWidth_lowLanes (by decide) v k
  | _ => exact word

/-- Settles O15: the encoding is the table's descriptor with the operand in its lanes, and the decoder reads the same
row and the same lanes back. -/
theorem decodeAndEncodeAgree : Obligations.DecodeAndEncodeAgree := by
  refine ⟨fun i => ⟨wf_of_decode_ok (decode_encode i), decode_encode i⟩, fun t i h => ?_⟩
  have hrow : t = { w := !i.isRead, sz := i.size, off := i.reg.offset, wdata := t.wdata } :=
    (eq_ofDescriptor_of_decode h).trans (i.ofDescriptor_descriptor t.wdata)
  have hdesc : (encode i).descriptor = t.descriptor :=
    (Transaction.descriptor_ofDescriptor _ _).trans (descriptor_of_decode h)
  have hbytes : nbytes t.sz = some i.accessBytes := by
    rw [hrow]
    exact i.nbytes_size
  have lanes (hw : t.w = true) (k : Nat) :
      (encode i).wdata.getLsbD k = (decide (k < 8 * i.accessBytes) && t.wdata.getLsbD k) := by
    have hwrite : i.isRead = false := by
      rw [hrow] at hw
      simpa using hw
    have hwdata : (encode i).wdata = (i.withWdata t.wdata).wdata := congrArg Instr.wdata (eq_withWdata_of_decode h)
    rw [hwdata]
    exact Instr.wdata_withWdata hwrite t.wdata k
  exact ⟨hdesc, _, hbytes, fun hw k hk => by simp [lanes hw, hk],
    fun hw k hk => by simp [lanes hw, Nat.not_lt.mpr hk]⟩

/-! ### The checks in their order -/

theorem decode_reservedSize {t : Transaction} (h : t.sz = 0b11) : decode t = .error .errSize :=
  if_pos h

theorem decode_misaligned {t : Transaction} (hsz : t.sz ≠ 0b11) (h : t.off.extractLsb' 0 2 ≠ 0b00) :
    decode t = .error .errAlign :=
  (if_neg hsz).trans (if_pos h)

theorem decode_unmapped {t : Transaction} (hsz : t.sz ≠ 0b11) (hal : t.off.extractLsb' 0 2 = 0b00)
    (h : Reg.ofOffset t.off = none) : decode t = .error .errUnmapped := by
  simp only [decode, hsz, hal, h, if_false, ne_eq, not_true_eq_false]

theorem decode_unpermittedSize {t : Transaction} {r : Reg} (hsz : t.sz ≠ 0b11) (hoff : t.off = r.offset)
    (h : ¬(t.sz = 0b10 ∨ (t.w = true ∧ t.off = 0x14))) : decode t = .error .errSize := by
  have hal : t.off.extractLsb' 0 2 = 0b00 := by rw [hoff]; cases r <;> rfl
  have hr : Reg.ofOffset t.off = some r := by rw [hoff]; exact Reg.ofOffset_offset r
  simp only [decode, hsz, hal, hr, h, if_false, ne_eq, not_true_eq_false]

theorem sizeDefined_iff {t : Transaction} : t.sizeDefined = true ↔ t.sz ≠ 0b11 := bne_iff_ne

/-- Aligned in 20_memory.md rule R44 (a multiple of 4) is aligned in the decoder (OFF[1:0] = 0). -/
theorem aligned_iff {t : Transaction} : t.aligned = true ↔ t.off.extractLsb' 0 2 = 0b00 := by
  have lowBits : ∀ off : BitVec 6, (off.toNat % 4 == 0) = true ↔ off.extractLsb' 0 2 = 0b00 := by decide
  exact lowBits t.off

theorem ofOffset_eq_none {t : Transaction} (h : t.mapped = false) : Reg.ofOffset t.off = none := by
  refine Option.eq_none_iff_forall_ne_some.mpr fun r hr => ?_
  have hmap : t.mapped = true := (aligned_and_mapped_iff.mpr ⟨r, Reg.ofOffset_eq_some hr⟩).2
  cases h.symm.trans hmap

/-- Settles O12: each check of WellFormed.lean is the decoder's own. -/
theorem decodeChecksInSpecOrder : Obligations.DecodeChecksInSpecOrder := by
  refine fun t => ⟨fun h => ?_, fun hs h => ?_, fun hs ha h => ?_, fun hs ha hm h => ?_, fun h => ?_⟩
  · exact decode_reservedSize (by simpa [Transaction.sizeDefined] using h)
  · exact decode_misaligned (sizeDefined_iff.mp hs) fun hal => Bool.eq_false_iff.mp h (aligned_iff.mpr hal)
  · exact decode_unmapped (sizeDefined_iff.mp hs) (aligned_iff.mp ha) (ofOffset_eq_none h)
  · have hsz := sizeDefined_iff.mp hs
    obtain ⟨r, hoff⟩ := aligned_and_mapped_iff.mp ⟨ha, hm⟩
    exact decode_unpermittedSize hsz hoff fun hp => Bool.eq_false_iff.mp h ((sizePermitted_iff hsz).mpr hp)
  · obtain ⟨i, hi⟩ := decode_ok_iff_wf.mpr h
    exact ⟨i, hi, descriptor_of_decode hi⟩

/-! ### The table -/

/-- Settles O13: the counts by evaluating the checks on the 512 descriptors, the rows as instances of one lemma. -/
theorem opcodeTableDecodes : Obligations.OpcodeTableDecodes := by
  refine ⟨by decide +kernel, fun v => ?_⟩
  have row (i : Instr) := decode_ofDescriptor_descriptor i v
  exact ⟨row .qntInRd, row .qntOutRd, row .qntStatusRd, row .crcCtrlRd, row .crcDataRd, row .crcStateRd,
    row .crcResultRd, row (.crcDataWr8 0), row (.crcDataWr16 0), row (.qntInWr 0), row (.qntOutWr 0),
    row (.qntStatusWr 0), row (.crcCtrlWr 0), row (.crcDataWr32 0), row (.crcStateWr 0), row (.crcResultWr 0)⟩

end Sys2Proof

namespace Sys2Proof.Machine

/-- The word next at the port is performed by the next step, whatever waits behind it. -/
theorem step_withFetchWord {nbits w : Nat} {i : Instr} (h : decodeTableWord nbits w = some i) (s : State) :
    step (s.withFetchWord nbits w) = exec i { s with phase := .operating } :=
  (step_transaction (s.withFetchWord_pending nbits w)).trans (perform_ok rfl (decodeTransaction_eq_some.mp h))

/-- Settles O14: the words by evaluation, the step by its equation for a transaction. -/
theorem tableWordsDecode : Obligations.TableWordsDecode :=
  ⟨by decide, by decide, by decide, by decide, by decide, fun s _ _ _ h => step_withFetchWord h s⟩

/-! ### Operations that change no register -/

/-- Writing zeros to bits 1:0 clears no flag. -/
theorem QntStatus.clear_eq_self (st : QntStatus) {v : Word} (h : v.extractLsb' 0 2 = 0) : st.clear v = st := by
  have bits (k : Nat) (hk : k < 2) : v.getLsbD k = false := by
    have hb : (v.extractLsb' 0 2).getLsbD k = false := by simp [h]
    simpa [BitVec.getLsbD_extractLsb', hk] using hb
  simp only [QntStatus.clear, bits 0 (by omega), bits 1 (by omega), Bool.not_false, Bool.and_true]

/-- Settles O49: each of these operations has no effect but its response. -/
theorem noOperationEncodings : Obligations.NoOperationEncodings := by
  intro s i hi
  suffices h : (effectOf i s).toRegisters = s.toRegisters from ⟨_, exec_eq i s, h⟩
  rcases hi with hread | ⟨v, rfl⟩ | ⟨v, rfl⟩ | ⟨v, rfl, hinit⟩ | ⟨v, rfl, hzero⟩
  · rw [effectOf_read hread]
  · rfl
  · rfl
  · simp only [effectOf, hinit, Bool.false_eq_true, if_false]
  · exact Registers.eq_of_sameQnt rfl ⟨rfl, rfl, s.qntStatus.clear_eq_self hzero⟩

/-! ### Pseudo-instructions -/

/-- A transaction as 30_encoding.md rule R73 shows it: its descriptor and, in a write, its write data. -/
def HostOp.shown (h : HostOp) : BitVec 9 × Option Word :=
  (h.transaction.descriptor, if h.transaction.w then some h.transaction.wdata else none)

/-- A host operation with the fields of an operation of the table shows its descriptor and operand. -/
theorem HostOp.shown_eq (h : HostOp) (i : Instr)
    (e : h.transaction = { w := !i.isRead, sz := i.size, off := i.reg.offset, wdata := i.wdata }) :
    h.shown = (i.descriptor, if i.isRead then none else some i.wdata) := by
  have hdesc : h.transaction.descriptor = i.descriptor := by
    rw [e, ← i.ofDescriptor_descriptor, Transaction.descriptor_ofDescriptor]
  rw [HostOp.shown, hdesc, e]
  cases i.isRead <;> rfl

/-- Settles O57: each host operation of an expansion is the transaction of one operation of the table. -/
theorem pseudoInstructionsExpand : Obligations.PseudoInstructionsExpand := by
  unfold Obligations.PseudoInstructionsExpand
  intro shown
  have single (p : PseudoOp) (h : HostOp) (i : Instr) (hexp : p.expand = [h])
      (e : h.transaction = { w := !i.isRead, sz := i.size, off := i.reg.offset, wdata := i.wdata }) :
      shown [p] = [(i.descriptor, if i.isRead then none else some i.wdata)] := by
    rw [← h.shown_eq i e]
    simp [shown, hexp, HostOp.shown]
  have feeds (bs : List Byte) : shown [.crcBytes bs] = bs.map fun b => (0x114, some (b.setWidth 32)) := by
    have feed (b : Byte) := (HostOp.wr8 Reg.crcData.offset b).shown_eq (.crcDataWr8 b) rfl
    calc shown [.crcBytes bs]
        = bs.map fun b => (HostOp.wr8 Reg.crcData.offset b).shown := by
          simp [shown, PseudoOp.expand, HostOp.shown]
      _ = _ := List.map_congr_left fun b _ => feed b
  have parts (bs : List Byte) : shown [.crc32 bs] = shown [.crcInit, .crcBytes bs, .crcGet] := by
    simp [shown, PseudoOp.expand]
  exact ⟨single _ _ (.crcCtrlWr 1) rfl rfl, fun b => single _ _ (.crcDataWr8 b) rfl rfl,
    fun h => single _ _ (.crcDataWr16 h) rfl rfl, fun w => single _ _ (.crcDataWr32 w) rfl rfl, feeds,
    single _ _ .crcResultRd rfl rfl, single _ _ .crcStateRd rfl rfl, fun v => single _ _ (.crcStateWr v) rfl rfl, parts,
    fun v => single _ _ (.qntInWr v) rfl rfl, single _ _ .qntOutRd rfl rfl, single _ _ .qntStatusRd rfl rfl,
    fun m => single _ _ (.qntStatusWr m) rfl rfl⟩

end Sys2Proof.Machine
end

section
/-! PROOFS. The quantizer (41_quantizer.md): its six operations, and the conversion, from the fields of a pattern and
the rounding of an exact quotient to the rule in rational arithmetic, its ranges, its order and its ties. -/

namespace Sys2Proof.Machine

/-! ### The operations -/

/-- The operations other than the three feeds take 4 bytes only: every other size at their offset and direction is
ERR_SIZE (30_encoding.md rule R63). -/
theorem isFourByteOperation {i : Instr} {f : Word → Instr} (hf : ∀ v, i.withWdata v = f v)
    (hi : i.isRead = true ∨ i.reg ≠ .crcData) : IsFourByteOperation i.descriptor f := by
  refine ⟨fun v => (decode_ofDescriptor_descriptor i v).trans (congrArg Except.ok (hf v)), fun t hw hoff hsz => ?_⟩
  have hrow := i.ofDescriptor_descriptor 0
  have hw' : t.w = !i.isRead := hw.trans (congrArg Transaction.w hrow)
  have hoff' : t.off = i.reg.offset := hoff.trans (congrArg Transaction.off hrow)
  by_cases hres : t.sz = 0b11
  · exact decode_reservedSize hres
  refine decode_unpermittedSize hres hoff' ?_
  rintro (h4 | ⟨hwrite, h14⟩)
  · exact hsz h4
  · rcases hi with hread | hreg
    · simp [hw', hread] at hwrite
    · exact hreg (Reg.eq_crcData_of_offset (hoff'.symm.trans h14))

/-- Settles O16: the row of the table, and the effect of QNT_IN_WR as a conversion. -/
theorem qntInWriteConverts : Obligations.QntInWriteConverts :=
  ⟨isFourByteOperation (i := .qntInWr 0) (fun _ => rfl) (.inr (by decide)), fun s v => exec_qntInWr s v⟩

/-- Settles O17: the row of the table, and the read of the stored pattern. -/
theorem qntInReadReturnsLastSample : Obligations.QntInReadReturnsLastSample :=
  ⟨isFourByteOperation (i := .qntInRd) (fun _ => rfl) (.inl rfl), exec_qntInRd, State.reset_qntIn⟩

theorem lowHalf_signExtend (x : Half) : (x.signExtend 32).extractLsb' 0 16 = x := by
  ext k hk
  rw [BitVec.getElem_extractLsb', BitVec.getLsbD_signExtend]
  simp [hk, show k < 32 by omega]

/-- Settles O18: sign extension keeps the signed value and the low half. -/
theorem qntOutReadSignExtends : Obligations.QntOutReadSignExtends := by
  refine ⟨isFourByteOperation (i := .qntOutRd) (fun _ => rfl) (.inl rfl), fun s => ?_, rfl⟩
  exact ⟨s.qntOut.signExtend 32, exec_qntOutRd s, BitVec.toInt_signExtend_of_le (by decide),
    lowHalf_signExtend s.qntOut⟩

/-- Settles O19: the write has no effect, and QNT_OUT has one writer. -/
theorem qntOutWriteIgnored : Obligations.QntOutWriteIgnored := by
  refine ⟨isFourByteOperation (i := .qntOutWr 0) (fun _ => rfl) (.inr (by decide)), exec_qntOutWr,
    fun i s t h hne => ?_⟩
  obtain rfl := exec_eq_next h
  exact sample_writer (.inr hne)

theorem QntStatus.toWord_getLsbD_zero (st : QntStatus) : st.toWord.getLsbD 0 = st.clamp := by
  obtain ⟨c, n⟩ := st
  revert c n
  decide

theorem QntStatus.toWord_getLsbD_one (st : QntStatus) : st.toWord.getLsbD 1 = st.nan := by
  obtain ⟨c, n⟩ := st
  revert c n
  decide

theorem QntStatus.toWord_getLsbD_above (st : QntStatus) {k : Nat} (hk : 2 ≤ k) : st.toWord.getLsbD k = false := by
  rw [QntStatus.toWord, BitVec.getLsbD_setWidth, BitVec.getLsbD_of_ge _ _ hk, Bool.and_false]

/-- Settles O20: the two flags in their bits, zeros above. -/
theorem qntStatusReadReturnsFlags : Obligations.QntStatusReadReturnsFlags :=
  ⟨isFourByteOperation (i := .qntStatusRd) (fun _ => rfl) (.inl rfl),
    fun s => ⟨s.qntStatus.toWord, exec_qntStatusRd s, s.qntStatus.toWord_getLsbD_zero, s.qntStatus.toWord_getLsbD_one,
      fun _ => s.qntStatus.toWord_getLsbD_above⟩,
    rfl⟩

/-- Settles O21: the row of the table, and the clearing of the flags bit by bit. -/
theorem qntStatusWriteClearsOnes : Obligations.QntStatusWriteClearsOnes :=
  ⟨isFourByteOperation (i := .qntStatusWr 0) (fun _ => rfl) (.inr (by decide)), exec_qntStatusWr⟩

/-! ### The fields of a pattern -/

theorem signField_eq (b : Word) : signField b = decide (2 ^ 31 ≤ b.toNat) :=
  BitVec.msb_eq_decide b

theorem expField_eq (b : Word) : expField b = b.toNat / 2 ^ 23 % 2 ^ 8 := by
  rw [expField, BitVec.extractLsb'_toNat, Nat.shiftRight_eq_div_pow]

theorem fracField_eq (b : Word) : fracField b = b.toNat % 2 ^ 23 := by
  rw [fracField, BitVec.extractLsb'_toNat, Nat.shiftRight_zero]

theorem expField_lt (b : Word) : expField b < 2 ^ 8 := (b.extractLsb' 23 8).isLt

theorem fracField_lt (b : Word) : fracField b < 2 ^ 23 := (b.extractLsb' 0 23).isLt

/-- The low 31 bits are EXP above FRAC. -/
theorem lowBits_eq (b : Word) : b.toNat % 2 ^ 31 = expField b * 2 ^ 23 + fracField b := by
  rw [expField_eq, fracField_eq]
  omega

/-- A finite pattern's number in units of 2^-149, with its sign. -/
def sampleUnits (b : Word) : Int :=
  applySign (signField b) (magnitudeUnits (expField b) (fracField b))

theorem unpackSample_nan {b : Word} (he : expField b = 0xFF) (hf : fracField b ≠ 0) : unpackSample b = .nan := by
  rw [unpackSample, if_pos he, if_pos hf]

theorem unpackSample_infinite {b : Word} (he : expField b = 0xFF) (hf : fracField b = 0) :
    unpackSample b = .infinite (signField b) := by
  rw [unpackSample, if_pos he, if_neg (not_not_intro hf)]

theorem unpackSample_finite {b : Word} (he : expField b ≠ 0xFF) : unpackSample b = .finite (sampleUnits b) := by
  rw [unpackSample, if_neg he, sampleUnits]

/-- What a pattern denotes, by its exponent and fraction fields (41_quantizer.md rules R81, R85). -/
theorem unpackSample_cases (b : Word) :
    (expField b = 0xFF ∧ fracField b ≠ 0 ∧ unpackSample b = .nan) ∨
      (expField b = 0xFF ∧ fracField b = 0 ∧ unpackSample b = .infinite (signField b)) ∨
      (expField b ≠ 0xFF ∧ unpackSample b = .finite (sampleUnits b)) := by
  by_cases he : expField b = 0xFF
  · by_cases hf : fracField b = 0
    · exact .inr (.inl ⟨he, hf, unpackSample_infinite he hf⟩)
    · exact .inl ⟨he, hf, unpackSample_nan he hf⟩
  · exact .inr (.inr ⟨he, unpackSample_finite he⟩)

theorem sampleUnits_of_unpackSample {b : Word} {u : Int} (h : unpackSample b = .finite u) :
    expField b ≠ 0xFF ∧ sampleUnits b = u := by
  rcases unpackSample_cases b with ⟨-, -, hb⟩ | ⟨-, -, hb⟩ | ⟨he, hb⟩
  · cases hb.symm.trans h
  · cases hb.symm.trans h
  · exact ⟨he, Sample.finite.inj (hb.symm.trans h)⟩

/-! ### The rounding of an exact quotient -/

/-- An integer strictly within half a unit of the quotient is its rounding, under every tie rule. -/
theorem roundQ_eq_of_near (tie : Config.QntTie) {num den k : Int} (hlo : 2 * num - den < 2 * den * k)
    (hhi : 2 * den * k < 2 * num + den) : roundQ tie num den = k := by
  have hden : 0 < den := by omega
  obtain ⟨h1, h2⟩ := roundQ_nearest tie num hden
  have hle : roundQ tie num den < k + 1 := by nlinarith
  have hge : k < roundQ tie num den + 1 := by nlinarith
  omega

theorem roundQ_mul (tie : Config.QntTie) (k : Int) {den : Int} (hden : 0 < den) : roundQ tie (k * den) den = k :=
  roundQ_eq_of_near tie (by linarith) (by linarith)

/-- Two integers within half a unit, the upper of one quotient and the lower of another not below it: the two quotients
are equal and lie halfway between the two integers. -/
theorem half_of_nearest_lt {num num' den k k' : Int} (hden : 0 < den) (hnum : num ≤ num')
    (hk : 2 * den * k ≤ 2 * num + den) (hk' : 2 * num' - den ≤ 2 * den * k') (hlt : k' < k) :
    num = num' ∧ 2 * num = (2 * k' + 1) * den := by
  have hstep : 2 * den * k' + 2 * den ≤ 2 * den * k := by nlinarith
  constructor <;> linarith

/-- Rounding is monotone, under every tie rule. -/
theorem roundQ_mono (tie : Config.QntTie) {num num' den : Int} (hden : 0 < den) (hnum : num ≤ num') :
    roundQ tie num den ≤ roundQ tie num' den := by
  by_contra hlt
  obtain ⟨-, hk⟩ := roundQ_nearest tie num hden
  obtain ⟨hk', -⟩ := roundQ_nearest tie num' hden
  obtain ⟨rfl, -⟩ := half_of_nearest_lt hden hnum hk hk' (not_le.mp hlt)
  exact hlt le_rfl

/-- Two tie rules differ only halfway between two integers. -/
theorem half_of_roundQ_ne {tie tie' : Config.QntTie} {num den : Int} (hden : 0 < den)
    (hne : roundQ tie num den ≠ roundQ tie' num den) : ∃ a, 2 * num = (2 * a + 1) * den := by
  obtain ⟨hlo, hhi⟩ := roundQ_nearest tie num hden
  obtain ⟨hlo', hhi'⟩ := roundQ_nearest tie' num hden
  rcases lt_or_gt_of_ne hne with hlt | hlt
  · exact ⟨_, (half_of_nearest_lt hden le_rfl hhi' hlo hlt).2⟩
  · exact ⟨_, (half_of_nearest_lt hden le_rfl hhi hlo' hlt).2⟩

/-- The integer each tie rule gives for a + 1/2 (41_quantizer.md rule R84). -/
def tieResult (tie : Config.QntTie) (a : Int) : Int :=
  match tie with
  | .halfUp => a + 1
  | .halfAway => if 0 ≤ a then a + 1 else a
  | .halfEven => if a % 2 = 0 then a else a + 1

theorem roundHalfUp_half {num den a : Int} (hden : 0 < den) (h : 2 * num = (2 * a + 1) * den) :
    roundHalfUp num den = a + 1 := by
  have hnum : 2 * num + den = (a + 1) * (2 * den) := by linarith
  rw [roundHalfUp, hnum, Int.mul_ediv_cancel _ (by omega)]

/-- Halfway between a and a + 1, `roundQ` is `tieResult`. -/
theorem roundQ_half (tie : Config.QntTie) {num den a : Int} (hden : 0 < den) (h : 2 * num = (2 * a + 1) * den) :
    roundQ tie num den = tieResult tie a := by
  cases tie with
  | halfUp => exact roundHalfUp_half hden h
  | halfAway =>
    have hsign : 0 ≤ num ↔ 0 ≤ a := by
      constructor
      · intro hn
        have : 0 < 2 * a + 1 + 1 := by nlinarith
        omega
      · intro ha
        have : 0 ≤ (2 * a + 1) * den := by positivity
        omega
    have hneg : 2 * -num = (2 * (-a - 1) + 1) * den := by linarith
    simp only [roundQ, tieResult, hsign, roundHalfUp_half hden h, roundHalfUp_half hden hneg]
    split <;> omega
  | halfEven =>
    obtain ⟨r, hr⟩ : ∃ r, den = 2 * r := ⟨num - a * den, by linarith⟩
    obtain ⟨hdiv, hmod⟩ : num / den = a ∧ num % den = r :=
      (Int.ediv_emod_unique hden).mpr ⟨by linarith, by omega, by omega⟩
    have hnlt : ¬ 2 * r < den := by omega
    have hngt : ¬ den < 2 * r := by omega
    simp only [roundQ, tieResult, hdiv, hmod, hnlt, hngt, if_false]

/-! ### The integer of a clamped value -/

theorem unitsPerOne_eq : unitsPerOne = 2 ^ 149 := rfl

theorem unitsPerOne_cast : (unitsPerOne : ℚ) = 2 ^ 149 := by
  rw [unitsPerOne_eq]
  norm_cast

theorem quantizedInteger_mono (tie : Config.QntTie) {s t : Int} (h : s ≤ t) :
    quantizedInteger tie s ≤ quantizedInteger tie t := by
  refine roundQ_mono tie unitsPerOne_pos ?_
  simp only [scaleSample, Config.qntNegativeScale, Config.qntNonNegativeScale]
  split <;> split <;> omega

theorem quantizedInteger_one (tie : Config.QntTie) : quantizedInteger tie unitsPerOne = 32767 :=
  (congrArg (roundQ tie · unitsPerOne) (by decide)).trans (roundQ_mul tie 32767 unitsPerOne_pos)

theorem quantizedInteger_zero (tie : Config.QntTie) : quantizedInteger tie 0 = 0 :=
  (congrArg (roundQ tie · unitsPerOne) (by decide)).trans (roundQ_mul tie 0 unitsPerOne_pos)

theorem quantizedInteger_negOne (tie : Config.QntTie) : quantizedInteger tie (-unitsPerOne) = -32768 :=
  (congrArg (roundQ tie · unitsPerOne) (by decide)).trans (roundQ_mul tie (-32768) unitsPerOne_pos)

/-- 0.5 is a tie, 16383 + 1/2, and its upper neighbour is even (41_quantizer.md rule R84). -/
theorem quantizedInteger_half (tie : Config.QntTie) : quantizedInteger tie (2 ^ 148) = 16384 :=
  (roundQ_half tie (a := 16383) unitsPerOne_pos (by decide)).trans (by cases tie <;> rfl)

/-- A clamped value in [-1, 1] gives an integer that 16 bits hold (41_quantizer.md rule R92). -/
theorem quantizedInteger_range (tie : Config.QntTie) {s : Int} (hlo : -unitsPerOne ≤ s) (hhi : s ≤ unitsPerOne) :
    -32768 ≤ quantizedInteger tie s ∧ quantizedInteger tie s ≤ 32767 :=
  ⟨(quantizedInteger_negOne tie).symm.trans_le (quantizedInteger_mono tie hlo),
    (quantizedInteger_mono tie hhi).trans_eq (quantizedInteger_one tie)⟩

/-- The 16-bit pattern has the value k: int16(k) does not wrap. -/
theorem quantize_value_toInt (tie : Config.QntTie) {b : Word} {s : Int} (h : clampSample (unpackSample b) = some s) :
    (quantize tie b).value.toInt = quantizedInteger tie s := by
  obtain ⟨hlo, hhi⟩ := clampSample_range h
  obtain ⟨hklo, hkhi⟩ := quantizedInteger_range tie hlo hhi
  rw [quantize_value h]
  exact BitVec.toInt_ofInt_eq_self (by decide) (by simpa using hklo) (by simpa using Int.lt_add_one_of_le hkhi)

/-- Settles O27: the range of the product by the sign of the clamped value, and the range of k by monotonicity from the
ends of the interval. -/
theorem conversionNeverWraps : Obligations.ConversionNeverWraps := by
  intro tie b s h
  obtain ⟨hlo, hhi⟩ := clampSample_range h
  obtain ⟨hklo, hkhi⟩ := quantizedInteger_range tie hlo hhi
  refine ⟨hlo, hhi, quantize_value_toInt tie h, fun hneg => ?_, fun hnonneg => ?_⟩
  · have hk := (quantizedInteger_mono tie hneg.le).trans_eq (quantizedInteger_zero tie)
    rw [scaleSample, if_pos hneg, Config.qntNegativeScale]
    omega
  · have hk := (quantizedInteger_zero tie).symm.trans_le (quantizedInteger_mono tie hnonneg)
    rw [scaleSample, if_neg (not_lt.mpr hnonneg), Config.qntNonNegativeScale]
    omega

/-! ### Monotonicity -/

/-- The clamp keeps the order of the numbers. -/
theorem clampSample_mono {x y : Sample} (h : x.le y) :
    ∃ s t, clampSample x = some s ∧ clampSample y = some t ∧ s ≤ t :=
  match x, y, h with
  | .nan, _, h => h.elim
  | .infinite true, .nan, h => h.elim
  | .infinite true, .infinite n, _ => ⟨_, _, rfl, rfl, (clampSample_range (x := .infinite n) rfl).1⟩
  | .infinite true, .finite y, _ => ⟨_, _, rfl, rfl, (clampSample_range (x := .finite y) rfl).1⟩
  | .infinite false, .nan, h => h.elim
  | .infinite false, .infinite true, h => h.elim
  | .infinite false, .infinite false, _ => ⟨_, _, rfl, rfl, le_rfl⟩
  | .infinite false, .finite _, h => h.elim
  | .finite _, .nan, h => h.elim
  | .finite _, .infinite true, h => nomatch h
  | .finite x, .infinite false, _ => ⟨_, _, rfl, rfl, (clampSample_range (x := .finite x) rfl).2⟩
  | .finite _, .finite _, h => ⟨_, _, rfl, rfl, min_le_min le_rfl (max_le_max le_rfl h)⟩

/-- A pattern's result, read off its clamped value and the integer it gives. -/
theorem quantize_value_eq {tie : Config.QntTie} {b : Word} {s k : Int} (hs : clampSample (unpackSample b) = some s)
    (hk : quantizedInteger tie s = k) : (quantize tie b).value = BitVec.ofInt 16 k :=
  (quantize_value hs).trans (congrArg (BitVec.ofInt 16) hk)

/-- The result of a product strictly within half a unit of k is k, under every tie rule. -/
theorem quantize_value_of_near (tie : Config.QntTie) {b : Word} {s k : Int} (hs : clampSample (unpackSample b) = some s)
    (hlo : 2 * scaleSample s - unitsPerOne < 2 * unitsPerOne * k)
    (hhi : 2 * unitsPerOne * k < 2 * scaleSample s + unitsPerOne) : (quantize tie b).value = BitVec.ofInt 16 k :=
  quantize_value_eq hs (roundQ_eq_of_near tie hlo hhi)

theorem quantize_half_value (tie : Config.QntTie) : (quantize tie 0x3F000000).value = 0x4000 :=
  quantize_value_eq (s := 2 ^ 148) (by decide) (quantizedInteger_half tie)

/-- Settles O28: clamp, scale and rounding are monotone; the values are roundings of exact products near an integer, and
0.5 is a tie on which the rules agree. -/
theorem conversionIsMonotone : Obligations.ConversionIsMonotone := by
  refine ⟨fun tie b b' h => ?_, fun tie => ?_⟩
  · obtain ⟨s, t, hs, ht, hst⟩ := clampSample_mono h
    rw [quantize_value_toInt tie hs, quantize_value_toInt tie ht]
    exact quantizedInteger_mono tie hst
  · have negHalf : (quantize tie 0xBF000000).value = 0xC000 :=
      quantize_value_of_near tie (s := -2 ^ 148) (k := -16384) (by decide) (by decide) (by decide)
    exact ⟨quantize_value_eq (s := unitsPerOne) (by decide) (quantizedInteger_one tie),
      quantize_value_eq (s := -unitsPerOne) (by decide) (quantizedInteger_negOne tie),
      quantize_value_eq (s := 0) (by decide) (quantizedInteger_zero tie),
      quantize_value_eq (s := 0) (by decide) (quantizedInteger_zero tie),
      quantize_value_of_near tie (s := 3 * 2 ^ 147) (k := 24575) (by decide) (by decide) (by decide),
      quantize_value_of_near tie (s := -(3 * 2 ^ 147)) (k := -24576) (by decide) (by decide) (by decide),
      congrArg BitVec.toInt (quantize_half_value tie), congrArg BitVec.toInt negHalf⟩

/-! ### NaN, the clamp, and zeros and subnormals -/

theorem quantize_of_nan (tie : Config.QntTie) {b : Word} (h : unpackSample b = .nan) :
    quantize tie b = { value := 0x0000, clamp := false, nan := true } := by
  simp [quantize, h, clampSample, clampIndicator, nanIndicator]

/-- Settles O25: the two ranges are the patterns with all exponent bits set and a fraction other than 0. -/
theorem nanGivesZeroAndNanFlag : Obligations.NanGivesZeroAndNanFlag := by
  intro tie b hb
  have hexp : expField b = 0xFF := by
    rw [expField_eq]
    omega
  have hfrac : fracField b ≠ 0 := by
    rw [fracField_eq]
    omega
  have conversion (tie) := quantize_of_nan tie (unpackSample_nan hexp hfrac)
  obtain ⟨-, effect⟩ := qntInWriteConverts
  exact ⟨conversion tie, fun s => by rw [effect s b, conversion s.qntTie, Bool.or_false, Bool.or_true]⟩

/-- A finite magnitude is above 1 exactly when its fields are above those of 1.0. -/
theorem unitsPerOne_lt_magnitudeUnits {e f : Nat} (hf : f < 2 ^ 23) :
    unitsPerOne < (magnitudeUnits e f : Int) ↔ 127 * 2 ^ 23 < e * 2 ^ 23 + f := by
  have hone : unitsPerOne = (2 ^ 23 * 2 ^ 126 : Nat) := by decide
  rw [hone, Int.ofNat_lt, magnitudeUnits]
  split
  case isTrue he => omega
  case isFalse he =>
    rcases Nat.lt_trichotomy e 127 with hlt | rfl | hgt
    · have hpow : 2 ^ (e - 1) ≤ 2 ^ 125 := Nat.pow_le_pow_right (by omega) (by omega)
      have hle := Nat.mul_le_mul (show 2 ^ 23 + f ≤ 2 ^ 24 by omega) hpow
      omega
    · rw [Nat.mul_lt_mul_right (by decide)]
      omega
    · have hpow : 2 ^ 127 ≤ 2 ^ (e - 1) := Nat.pow_le_pow_right (by omega) (by omega)
      have hle := Nat.mul_le_mul (show 2 ^ 23 ≤ 2 ^ 23 + f by omega) hpow
      omega

theorem clampIndicator_applySign (negative : Bool) (m : Nat) :
    clampIndicator (.finite (applySign negative m)) = decide (unitsPerOne < (m : Int)) := by
  have hpos := unitsPerOne_pos
  rw [clampIndicator, ← Bool.decide_or, decide_eq_decide]
  cases negative <;> simp only [applySign, Bool.false_eq_true, if_true, if_false] <;> omega

/-- The clamp indicator on the bit patterns: above 1.0 in magnitude, up to the infinities. -/
theorem clampIndicator_unpackSample (b : Word) :
    clampIndicator (unpackSample b) = true ↔ 0x3F800000 < b.toNat % 2 ^ 31 ∧ b.toNat % 2 ^ 31 ≤ 0x7F800000 := by
  have hexp := expField_lt b
  have hfrac := fracField_lt b
  rw [lowBits_eq]
  rcases unpackSample_cases b with ⟨he, hf, hx⟩ | ⟨he, hf, hx⟩ | ⟨he, hx⟩
  · simp only [hx, clampIndicator, Bool.false_eq_true, false_iff]
    omega
  · simp only [hx, clampIndicator, true_iff]
    omega
  · rw [hx, sampleUnits, clampIndicator_applySign, decide_eq_true_iff, unitsPerOne_lt_magnitudeUnits hfrac]
    omega

/-- A clamped pattern is replaced by the 1 of its sign. -/
theorem clampSample_of_clampIndicator {b : Word} (h : clampIndicator (unpackSample b) = true) :
    clampSample (unpackSample b) = some (if signField b then -unitsPerOne else unitsPerOne) := by
  have hpos := unitsPerOne_pos
  rcases unpackSample_cases b with ⟨-, -, hx⟩ | ⟨-, -, hx⟩ | ⟨-, hx⟩
  · rw [hx] at h
    cases h
  · rw [hx, clampSample]
  · rw [hx, sampleUnits, clampIndicator_applySign, decide_eq_true_iff] at h
    rw [hx, sampleUnits, clampSample]
    cases signField b <;> simp only [applySign, Bool.false_eq_true, if_true, if_false, Option.some.injEq] <;> omega

theorem nanIndicator_of_clampIndicator {x : Sample} (h : clampIndicator x = true) : nanIndicator x = false := by
  cases x with
  | nan => cases h
  | infinite | finite => rfl

/-- Settles O26: the patterns whose number is beyond 1, and the two ends of the interval. -/
theorem clampExactlyBeyondOne : Obligations.ClampExactlyBeyondOne := by
  refine fun tie b => ⟨clampIndicator_unpackSample b, fun h => ⟨nanIndicator_of_clampIndicator h, ?_⟩⟩
  rw [quantize_value (clampSample_of_clampIndicator h), signField_eq]
  by_cases hs : b.toNat < 2 ^ 31
  · rw [decide_eq_false (not_le.mpr hs), if_neg Bool.false_ne_true, quantizedInteger_one, if_pos hs]
    rfl
  · rw [decide_eq_true (not_lt.mp hs), if_pos rfl, quantizedInteger_negOne, if_neg hs]
    rfl

/-- A number of magnitude at most 1 is its own clamped value. -/
theorem clampSample_finite {u : Int} (hlo : -unitsPerOne ≤ u) (hhi : u ≤ unitsPerOne) :
    clampSample (.finite u) = some u := by
  rw [clampSample, max_eq_right hlo, min_eq_right hhi]

theorem clampIndicator_finite {u : Int} (hlo : -unitsPerOne ≤ u) (hhi : u ≤ unitsPerOne) :
    clampIndicator (.finite u) = false := by
  simp [clampIndicator, hlo, hhi]

/-- Settles O30: a subnormal is less than 2^23 units, so its product is far less than half a unit of the result. -/
theorem zerosAndSubnormalsGiveZero : Obligations.ZerosAndSubnormalsGiveZero := by
  intro tie b hb
  have hone := unitsPerOne_eq
  have hfrac := fracField_lt b
  have hexp : expField b = 0 := by
    rw [expField_eq]
    omega
  have hx : unpackSample b = .finite (sampleUnits b) := unpackSample_finite (by omega)
  obtain ⟨hlo, hhi⟩ : -2 ^ 23 < sampleUnits b ∧ sampleUnits b < 2 ^ 23 := by
    rw [sampleUnits, hexp, magnitudeUnits, if_pos rfl, applySign]
    split <;> omega
  have hs : clampSample (unpackSample b) = some (sampleUnits b) := hx ▸ clampSample_finite (by omega) (by omega)
  have hk : quantizedInteger tie (sampleUnits b) = 0 := by
    apply roundQ_eq_of_near <;> rw [scaleSample, Config.qntNegativeScale, Config.qntNonNegativeScale] <;>
      split <;> omega
  have hvalue : (quantize tie b).value = 0x0000 := quantize_value_eq hs hk
  have hclamp : (quantize tie b).clamp = false :=
    (congrArg clampIndicator hx).trans (clampIndicator_finite (by omega) (by omega))
  have hnan : (quantize tie b).nan = false := congrArg nanIndicator hx
  calc quantize tie b = ⟨(quantize tie b).value, (quantize tie b).clamp, (quantize tie b).nan⟩ := rfl
    _ = _ := by rw [hvalue, hclamp, hnan]

/-! ### The significant bits of the product -/

theorem natAbs_applySign (negative : Bool) (m : Nat) : (applySign negative m).natAbs = m := by
  cases negative
  · exact Int.natAbs_natCast m
  · exact (Int.natAbs_neg _).trans (Int.natAbs_natCast m)

theorem applySign_mul (negative : Bool) (m n : Nat) : applySign negative (m * n) = applySign negative m * n := by
  cases negative <;> simp [applySign]

/-- A finite number is its significand, below 2^24 in magnitude, times a power of two. -/
theorem sampleUnits_significand (b : Word) : ∃ (m : Int) (e : Nat), m.natAbs < 2 ^ 24 ∧ sampleUnits b = m * 2 ^ e := by
  have hfrac := fracField_lt b
  rw [sampleUnits, magnitudeUnits]
  split
  · refine ⟨applySign (signField b) (fracField b), 0, ?_, by rw [pow_zero, mul_one]⟩
    rw [natAbs_applySign]
    omega
  · refine ⟨applySign (signField b) (2 ^ 23 + fracField b), expField b - 1, ?_, by rw [applySign_mul]; norm_cast⟩
    rw [natAbs_applySign]
    omega

/-- A clamped value is the finite number itself, or an end of the interval. -/
theorem clampSample_cases {x : Sample} {s : Int} (h : clampSample x = some s) :
    x = .finite s ∨ s = unitsPerOne ∨ s = -unitsPerOne := by
  cases x with
  | nan => cases h
  | infinite negative =>
    obtain rfl := Option.some.inj h
    cases negative
    · exact .inr (.inl rfl)
    · exact .inr (.inr rfl)
  | finite u =>
    obtain rfl := Option.some.inj h
    rw [Sample.finite.injEq]
    omega

theorem clampSample_significand {b : Word} {s : Int} (h : clampSample (unpackSample b) = some s) :
    ∃ (m : Int) (e : Nat), m.natAbs < 2 ^ 24 ∧ s = m * 2 ^ e := by
  rcases clampSample_cases h with hx | rfl | rfl
  · obtain ⟨-, rfl⟩ := sampleUnits_of_unpackSample hx
    exact sampleUnits_significand b
  · exact ⟨1, 149, by decide, by decide⟩
  · exact ⟨-1, 149, by decide, by decide⟩

/-- Settles O29: the significand times the scale, which is at most 2^15; the product of the example is near 32767. -/
theorem productFitsThirtyNineBits : Obligations.ProductFitsThirtyNineBits := by
  refine ⟨fun b s h => ?_, fun tie => ?_⟩
  · obtain ⟨m, e, hm, rfl⟩ := clampSample_significand h
    have scaled (scale : Int) (hs : scale.natAbs ≤ 2 ^ 15) :
        ∃ (m' : Int) (e' : Nat), m'.natAbs < 2 ^ 39 ∧ m * 2 ^ e * scale = m' * 2 ^ e' := by
      refine ⟨m * scale, e, ?_, by ring⟩
      rw [Int.natAbs_mul]
      calc m.natAbs * scale.natAbs < 2 ^ 24 * 2 ^ 15 := Nat.mul_lt_mul_of_lt_of_le hm hs (by decide)
        _ = 2 ^ 39 := by norm_num
    rw [scaleSample]
    split
    · exact scaled _ (by decide)
    · exact scaled _ (by decide)
  · exact quantize_value_of_near tie (s := 0xFFFF00 * 2 ^ 125) (k := 32767) (by decide) (by decide) (by decide)

/-! ### The rule in rational arithmetic -/

/-- A finite pattern's value is its number of units of 2^-149. -/
theorem sampleValue_eq (b : Word) : sampleValue b = (sampleUnits b : ℚ) / 2 ^ 149 := by
  have magnitude : (if expField b = 0 then (fracField b : ℚ) * 2 ^ (-149 : ℤ)
      else ((2 : ℚ) ^ 23 + (fracField b : ℚ)) * 2 ^ ((expField b : ℤ) - 150)) =
      (magnitudeUnits (expField b) (fracField b) : ℚ) / 2 ^ 149 := by
    rw [magnitudeUnits]
    split
    case isTrue => norm_num [div_eq_mul_inv]
    case isFalse he =>
      have hpow : ((expField b : ℤ) - 150) = ((expField b - 1 : Nat) : ℤ) - (149 : Nat) := by omega
      rw [hpow, zpow_sub₀ (by norm_num), zpow_natCast, zpow_natCast]
      push_cast
      ring
  rw [sampleValue, magnitude, sampleUnits, applySign]
  split <;> push_cast <;> ring

theorem scaledValue_eq (s : Int) : scaledValue ((s : ℚ) / 2 ^ 149) = (scaleSample s : ℚ) / unitsPerOne := by
  have hsign : (s : ℚ) / 2 ^ 149 < 0 ↔ s < 0 := by
    rw [div_lt_iff₀ (by positivity), zero_mul, Int.cast_lt_zero]
  simp only [scaledValue, scaleSample, hsign, unitsPerOne_cast, Config.qntNegativeScale, Config.qntNonNegativeScale]
  split <;> push_cast <;> ring

/-- The clamp of the units is the clamp of the value (41_quantizer.md rule R82). -/
theorem clampUnits_eq (u : Int) : ((min unitsPerOne (max (-unitsPerOne) u) : Int) : ℚ) / 2 ^ 149 =
    min 1 (max (-1) ((u : ℚ) / 2 ^ 149)) := by
  have hpos : (0 : ℚ) ≤ 2 ^ 149 := by positivity
  push_cast
  rw [unitsPerOne_cast, ← min_div_div_right hpos, ← max_div_div_right hpos, neg_div, div_self (by positivity)]

theorem tieResult_cases (tie : Config.QntTie) (a : Int) : tieResult tie a = a ∨ tieResult tie a = a + 1 := by
  cases tie with
  | halfUp => exact .inr rfl
  | halfAway => exact (ite_eq_or_eq _ _ _).symm
  | halfEven => exact ite_eq_or_eq _ _ _

theorem isRounded_tieResult (tie : Config.QntTie) (a : Int) : IsRounded tie ((a : ℚ) + 1 / 2) (tieResult tie a) := by
  have hhalf : |(a : ℚ) + 1 / 2 - (tieResult tie a : ℚ)| = 1 / 2 := by
    rcases tieResult_cases tie a with hk | hk <;> rw [hk] <;> norm_num
  refine ⟨hhalf.le, fun _ => ?_⟩
  cases tie with
  | halfUp =>
    simp only [tieResult]
    push_cast
    linarith
  | halfAway =>
    simp only [tieResult]
    split
    case isTrue ha =>
      have ha' : (0 : ℚ) ≤ a := by exact_mod_cast ha
      push_cast
      rw [abs_of_nonneg (by linarith), abs_of_nonneg (by linarith)]
      linarith
    case isFalse ha =>
      have ha' : (a : ℚ) ≤ -1 := by exact_mod_cast Int.le_of_lt_add_one (show a < -1 + 1 by omega)
      rw [abs_of_nonpos (by linarith), abs_of_nonpos (by linarith)]
      linarith
  | halfEven =>
    simp only [tieResult]
    split <;> omega

/-- `roundQ` rounds as 41_quantizer.md rule R84 says: to the nearest integer, and by the tie rule halfway. -/
theorem isRounded_roundQ (tie : Config.QntTie) (num : Int) {den : Int} (hden : 0 < den) :
    IsRounded tie ((num : ℚ) / den) (roundQ tie num den) := by
  have hden' : (0 : ℚ) < den := by exact_mod_cast hden
  by_cases hhalf : ∃ a, 2 * num = (2 * a + 1) * den
  · obtain ⟨a, ha⟩ := hhalf
    have ha' : 2 * (num : ℚ) = (2 * a + 1) * den := by exact_mod_cast ha
    have hp : (num : ℚ) / den = a + 1 / 2 := by
      rw [div_eq_iff hden'.ne']
      linarith
    rw [hp, roundQ_half tie hden ha]
    exact isRounded_tieResult tie a
  · obtain ⟨hlo, hhi⟩ := roundQ_nearest tie num hden
    generalize roundQ tie num den = k at hlo hhi ⊢
    have hlo' : 2 * num - den < 2 * den * k := lt_of_le_of_ne hlo fun h => hhalf ⟨k, by linarith⟩
    have hhi' : 2 * den * k < 2 * num + den := lt_of_le_of_ne hhi fun h => hhalf ⟨k - 1, by linarith⟩
    have hdist : |(num : ℚ) / den - k| < 1 / 2 := by
      have hlo'' : 2 * (num : ℚ) - den < 2 * den * k := by exact_mod_cast hlo'
      have hhi'' : 2 * (den : ℚ) * k < 2 * num + den := by exact_mod_cast hhi'
      rw [div_sub' hden'.ne', abs_div, abs_of_pos hden', div_lt_iff₀ hden', abs_lt]
      constructor <;> linarith
    exact ⟨hdist.le, fun h => absurd h hdist.ne⟩

theorem isRounded_quantizedInteger (tie : Config.QntTie) (s : Int) :
    IsRounded tie (scaledValue ((s : ℚ) / 2 ^ 149)) (quantizedInteger tie s) := by
  rw [scaledValue_eq]
  exact isRounded_roundQ tie _ unitsPerOne_pos

/-- The rounding and the 16-bit pattern of rule R81, for the rational reading x of a clamped value. -/
theorem exists_rounded_value (tie : Config.QntTie) {b : Word} {s : Int} {x : ℚ}
    (h : clampSample (unpackSample b) = some s) (hx : (s : ℚ) / 2 ^ 149 = x) :
    ∃ k : ℤ, IsRounded tie (scaledValue x) k ∧ (quantize tie b).value = BitVec.ofInt 16 k ∧
      (quantize tie b).value.toInt = k :=
  ⟨quantizedInteger tie s, hx ▸ isRounded_quantizedInteger tie s, quantize_value h, quantize_value_toInt tie h⟩

/-- The clamp indicator of a finite pattern is that of its value (41_quantizer.md rule R83). -/
theorem clampIndicator_sampleUnits (b : Word) :
    clampIndicator (.finite (sampleUnits b)) = true ↔ sampleValue b > 1 ∨ sampleValue b < -1 := by
  rw [sampleValue_eq, gt_iff_lt, lt_div_iff₀ (by positivity), div_lt_iff₀ (by positivity), clampIndicator,
    Bool.or_eq_true, decide_eq_true_iff, decide_eq_true_iff, unitsPerOne_eq]
  norm_cast

/-- Settles O22: the cases of a pattern, each with the clamped value that rule R81 computes from it. -/
theorem quantizeIsExactRationalRule : Obligations.QuantizeIsExactRationalRule := by
  intro tie b
  rcases unpackSample_cases b with ⟨he, hf, hx⟩ | ⟨he, hf, hx⟩ | ⟨he, hx⟩
  · rw [IsSpecConversion, if_pos ⟨he, hf⟩]
    exact quantize_of_nan tie hx
  · rw [IsSpecConversion, if_neg (fun h => h.2 hf), if_pos he]
    refine ⟨congrArg clampIndicator hx, congrArg nanIndicator hx, exists_rounded_value tie (congrArg clampSample hx) ?_⟩
    cases signField b <;> norm_num [unitsPerOne]
  · rw [IsSpecConversion, if_neg (fun h => he h.1), if_neg he]
    have hclamp : (quantize tie b).clamp = clampIndicator (.finite (sampleUnits b)) := congrArg clampIndicator hx
    refine ⟨hclamp ▸ clampIndicator_sampleUnits b, congrArg nanIndicator hx,
      exists_rounded_value tie (congrArg clampSample hx) ?_⟩
    rw [clampUnits_eq, sampleValue_eq]

theorem roundHalfUp_eq_floor (num : Int) {den : Int} (hden : 0 < den) :
    roundHalfUp num den = ⌊(num : ℚ) / den + 1 / 2⌋ := by
  have hden' : (0 : ℚ) < den := by exact_mod_cast hden
  have hsum : (num : ℚ) / den + 1 / 2 = ((2 * num + den : Int) : ℚ) / ((2 * den : Int) : ℚ) := by
    push_cast
    field_simp
  rw [hsum, Int.floor_div_cast_of_nonneg (by omega), Int.floor_intCast, roundHalfUp]

/-- Settles O23: HALF_UP on the exact product. -/
theorem halfUpIsFloorOfPlusHalf : Obligations.HalfUpIsFloorOfPlusHalf := by
  intro b s h
  rw [quantize_value_toInt .halfUp h, scaledValue_eq]
  exact roundHalfUp_eq_floor (scaleSample s) unitsPerOne_pos

/-! ### The ties -/

/-- The value -(2j+1)/2^16 in units of 2^-149. -/
theorem sampleValue_eq_tie_iff (b : Word) (j : Nat) :
    sampleValue b = -(2 * j + 1) / 2 ^ 16 ↔ sampleUnits b = -((2 * j + 1) * 2 ^ 133) := by
  rw [sampleValue_eq, div_eq_div_iff (by positivity) (by positivity)]
  have hscale : (-(2 * (j : ℚ) + 1) * 2 ^ 149) = ((-((2 * j + 1) * 2 ^ 133) : Int) : ℚ) * 2 ^ 16 := by
    push_cast
    ring
  rw [hscale, mul_left_inj' (by positivity), Int.cast_inj]

/-- The product of -(2j+1)/2^16 lies halfway between -(j+1) and -j. -/
theorem quantizedInteger_tie (tie : Config.QntTie) (j : Nat) :
    quantizedInteger tie (-((2 * j + 1) * 2 ^ 133)) = tieResult tie (-(j + 1)) := by
  refine roundQ_half tie unitsPerOne_pos ?_
  rw [scaleSample, if_pos (by omega), Config.qntNegativeScale, unitsPerOne]
  ring

/-- What each tie rule gives on a tie pattern. -/
theorem quantize_tie_value (tie : Config.QntTie) {b : Word} {j : Nat} (he : expField b ≠ 0xFF) (hj : j < 32768)
    (hb : sampleValue b = -(2 * j + 1) / 2 ^ 16) :
    (quantize tie b).value = BitVec.ofInt 16 (tieResult tie (-(j + 1))) := by
  have hone := unitsPerOne_eq
  have hx := unpackSample_finite he
  rw [(sampleValue_eq_tie_iff b j).mp hb] at hx
  exact quantize_value_eq (hx ▸ clampSample_finite (by omega) (by omega)) (quantizedInteger_tie tie j)

/-- A clamped value on which two tie rules differ is -(2j+1)/2^16: a product halfway between two integers, and of the
non-negative ones only 0.5 has such a product, on which the rules agree. -/
theorem tie_of_quantizedInteger_ne {tie tie' : Config.QntTie} {s : Int} (hlo : -unitsPerOne ≤ s) (hhi : s ≤ unitsPerOne)
    (hne : quantizedInteger tie s ≠ quantizedInteger tie' s) : ∃ j : Nat, j < 32768 ∧ s = -((2 * j + 1) * 2 ^ 133) := by
  have hone := unitsPerOne_eq
  obtain ⟨a, ha⟩ := half_of_roundQ_ne unitsPerOne_pos hne
  rw [scaleSample, Config.qntNegativeScale, Config.qntNonNegativeScale, unitsPerOne_eq] at ha
  split at ha
  case isTrue hneg =>
    exact ⟨(-a - 1).toNat, by omega, by omega⟩
  case isFalse hnonneg =>
    have hdvd : (2 : Int) ^ 148 ∣ s :=
      Int.dvd_of_dvd_mul_left_of_gcd_one (c := 32767) ⟨2 * a + 1, by linarith⟩ (by decide)
    obtain ⟨t, rfl⟩ := hdvd
    obtain rfl : t = 1 := by omega
    exact absurd ((quantizedInteger_half tie).trans (quantizedInteger_half tie').symm) hne

/-- The negative pattern with the given exponent and fraction fields. -/
def negativePattern (e f : Nat) : Word :=
  BitVec.ofNat 32 (2 ^ 31 + e * 2 ^ 23 + f)

theorem negativePattern_fields {e f : Nat} (he : e < 2 ^ 8) (hf : f < 2 ^ 23) :
    signField (negativePattern e f) = true ∧ expField (negativePattern e f) = e ∧
      fracField (negativePattern e f) = f := by
  have hnat : (negativePattern e f).toNat = 2 ^ 31 + e * 2 ^ 23 + f :=
    (BitVec.toNat_ofNat _ _).trans (Nat.mod_eq_of_lt (by omega))
  rw [signField_eq, expField_eq, fracField_eq, hnat, decide_eq_true_iff]
  omega

/-- A positive integer of at most 24 bits is a 24-bit significand, its top bit set, shifted down. -/
theorem exists_significand {m : Nat} (hm : 0 < m) (hm' : m < 2 ^ 24) :
    ∃ n f : Nat, n ≤ 23 ∧ f < 2 ^ 23 ∧ 2 ^ 23 + f = m * 2 ^ (23 - n) := by
  have hn : Nat.log 2 m ≤ 23 := Nat.le_of_lt_succ (Nat.log_lt_of_lt_pow hm.ne' hm')
  have hlo : 2 ^ Nat.log 2 m ≤ m := Nat.pow_log_le_self 2 hm.ne'
  have hhi : m < 2 ^ Nat.log 2 m * 2 := Nat.lt_pow_succ_log_self one_lt_two m
  have htop : 2 ^ Nat.log 2 m * 2 ^ (23 - Nat.log 2 m) = 2 ^ 23 := by rw [← pow_add, Nat.add_sub_cancel' hn]
  have hpos : 0 < 2 ^ (23 - Nat.log 2 m) := by positivity
  have hlo' : 2 ^ 23 ≤ m * 2 ^ (23 - Nat.log 2 m) := htop ▸ Nat.mul_le_mul_right _ hlo
  have hhi' : m * 2 ^ (23 - Nat.log 2 m) < 2 * 2 ^ 23 := by
    rw [← htop]
    nlinarith
  exact ⟨Nat.log 2 m, m * 2 ^ (23 - Nat.log 2 m) - 2 ^ 23, hn, by omega, by omega⟩

/-- Every tie is the value of a pattern. -/
theorem exists_tie_pattern {j : Nat} (hj : j < 32768) :
    ∃ b : Word, expField b ≠ 0xFF ∧ sampleValue b = -(2 * j + 1) / 2 ^ 16 := by
  obtain ⟨n, f, hn, hf, hsig⟩ := exists_significand (m := 2 * j + 1) (by omega) (by omega)
  obtain ⟨hs, he, hfrac⟩ := negativePattern_fields (e := 111 + n) (by omega) hf
  have hmag : magnitudeUnits (111 + n) f = (2 * j + 1) * 2 ^ 133 := by
    rw [magnitudeUnits, if_neg (by omega), hsig, mul_assoc, ← pow_add, show 23 - n + (111 + n - 1) = 133 by omega]
  refine ⟨negativePattern (111 + n) f, by omega, (sampleValue_eq_tie_iff _ j).mpr ?_⟩
  rw [sampleUnits, hs, he, hfrac, hmag, applySign, if_pos rfl]
  norm_cast

/-- Tie rules differ only in the value: neither indicator depends on them. -/
theorem quantizedInteger_ne_of_quantize_ne {tie tie' : Config.QntTie} {b : Word}
    (h : quantize tie b ≠ quantize tie' b) :
    ∃ s, clampSample (unpackSample b) = some s ∧ quantizedInteger tie s ≠ quantizedInteger tie' s := by
  cases hs : clampSample (unpackSample b) with
  | none => exact absurd (by simp [quantize, hs]) h
  | some s => exact ⟨s, rfl, fun hk => h (by simp [quantize, hs, hk])⟩

/-- Settles O24: the ties are odd multiples of 2^-16, strictly inside the interval, so a pattern that shows one is
finite and has that value. -/
theorem tieRuleMattersOnlyOnNegativeOddHalves : Obligations.TieRuleMattersOnlyOnNegativeOddHalves := by
  have hone := unitsPerOne_eq
  refine ⟨fun b j he hj hb => ⟨?_, ?_, ?_⟩, fun b tie tie' hne => ?_, fun j hj => exists_tie_pattern hj,
    quantize_half_value⟩
  · rw [quantize_tie_value .halfUp he hj hb, tieResult]
    congr 1
    omega
  · rw [quantize_tie_value .halfAway he hj hb, tieResult, if_neg (by omega)]
  · rw [quantize_tie_value .halfEven he hj hb, tieResult]
    congr 1
    split <;> split <;> omega
  · obtain ⟨s, hs, hk⟩ := quantizedInteger_ne_of_quantize_ne hne
    obtain ⟨hlo, hhi⟩ := clampSample_range hs
    obtain ⟨j, hj, rfl⟩ := tie_of_quantizedInteger_ne hlo hhi hk
    obtain ⟨he, hu⟩ := sampleUnits_of_unpackSample ((clampSample_cases hs).resolve_right (by omega))
    exact ⟨he, j, hj, (sampleValue_eq_tie_iff b j).mpr hu⟩

end Sys2Proof.Machine
end

section
/-! PROOFS. The CRC unit (42_crc.md): the byte step as the rule's loop and as a linear map over GF(2), with the table
form and the residue; the ten operations; and the runs that feed, save and restore a stream. -/

namespace Sys2Proof.Machine

/-! ### The rule's loop -/

theorem crcShifts_eq_iterate (n : Nat) (c : Word) : crcShifts n c = crcShift^[n] c := by
  induction n generalizing c with
  | zero => rfl
  | succ n ih => exact ih (crcShift c)

theorem getLsbD_zero_iff (c : Word) : c.getLsbD 0 = true ↔ c &&& 1 = 1 := by
  show _ ↔ c &&& 1#32 = 1#32
  rw [BitVec.and_one_eq_setWidth_ofBool_getLsbD]
  cases c.getLsbD 0 <;> decide

/-- One iteration as 42_crc.md rule R111 writes it. -/
theorem crcShift_eq : crcShift = fun x : Word => if x &&& 1 = 1 then (x >>> 1) ^^^ 0xEDB88320 else x >>> 1 := by
  funext x
  exact if_congr (getLsbD_zero_iff x) rfl rfl

/-- Settles O31: the iterations are those of the rule. -/
theorem crcByteStepIsSpecLoop : Obligations.CrcByteStepIsSpecLoop :=
  ⟨fun c b => by rw [← crcShift_eq, ← crcShifts_eq_iterate]; rfl, crcBytes_nil, crcBytes_cons⟩

/-! ### The byte step as a linear map -/

/-- While only zeros leave the register, the iterations are plain shifts. -/
theorem crcShifts_of_lowBits_zero {n : Nat} {c : Word} (h : ∀ k < n, c.getLsbD k = false) :
    crcShifts n c = c >>> n := by
  induction n generalizing c with
  | zero => simp
  | succ n ih =>
    have hshift : crcShift c = c >>> 1 := if_neg (by simp only [h 0 n.succ_pos, Bool.false_eq_true, not_false_eq_true])
    have hlow (k : Nat) (hk : k < n) : (c >>> 1).getLsbD k = false := by
      rw [BitVec.getLsbD_ushiftRight]
      exact h _ (by omega)
    rw [crcShifts_succ, hshift, ih hlow, ← BitVec.shiftRight_add, Nat.add_comm]

/-- A byte XORed into the low lane is shifted out with it. -/
theorem xor_byte_ushiftRight (w : Word) (b : Byte) : (w ^^^ b.setWidth 32) >>> 8 = w >>> 8 := by
  have hbyte : (b.setWidth 32 : Word) >>> 8 = 0#32 := by
    ext k hk
    simp
  rw [BitVec.ushiftRight_xor_distrib, hbyte, BitVec.xor_zero]

theorem xor_lowByte_getLsbD (w : Word) {k : Nat} (hk : k < 8) :
    (w ^^^ (w.setWidth 8).setWidth 32).getLsbD k = false := by
  simp [hk, show k < 32 by omega]

/-- Eight iterations are the byte step of the low byte and a shift of the rest: they are linear, and the rest, with
zeros in the low byte, never meets the polynomial. -/
theorem crcShifts_eight_xor (c w : Word) : crcShifts 8 (c ^^^ w) = crcByte c (w.setWidth 8) ^^^ w >>> 8 := by
  have hrest : crcShifts 8 (w ^^^ (w.setWidth 8).setWidth 32) = w >>> 8 := by
    rw [crcShifts_of_lowBits_zero fun k => xor_lowByte_getLsbD w, xor_byte_ushiftRight]
  have hsplit : c ^^^ w = c ^^^ (w.setWidth 8).setWidth 32 ^^^ (w ^^^ (w.setWidth 8).setWidth 32) := by
    rw [BitVec.xor_comm w, ← BitVec.xor_assoc, BitVec.xor_assoc c, BitVec.xor_self, BitVec.xor_zero]
  rw [hsplit, crcShifts_xor, hrest, crcByte_eq]

/-- The table form (42_crc.md rule R122). -/
theorem crcByte_eq_table (c : Word) (b : Byte) :
    crcByte c b = crcTableEntry ((c ^^^ b.setWidth 32).setWidth 8) ^^^ c >>> 8 :=
  calc crcByte c b
      = crcShifts 8 (0#32 ^^^ (c ^^^ b.setWidth 32)) := by rw [BitVec.zero_xor, crcByte_eq]
    _ = crcTableEntry ((c ^^^ b.setWidth 32).setWidth 8) ^^^ (c ^^^ b.setWidth 32) >>> 8 := crcShifts_eight_xor 0 _
    _ = _ := by rw [xor_byte_ushiftRight]

theorem setWidth_and_byteMask (w : Word) : (w &&& 0xFF).setWidth 8 = w.setWidth 8 :=
  BitVec.setWidth_and.trans BitVec.and_allOnes

/-- Settles O42: the table form, and the entries by evaluation. -/
theorem crcTableFormEqualsBitLoop : Obligations.CrcTableFormEqualsBitLoop := by
  refine ⟨fun c b => ?_, by decide, by decide, by decide, by decide, by decide⟩
  rw [setWidth_and_byteMask]
  exact crcByte_eq_table c b

/-! ### Byte strings -/

/-- Feeding a string in two parts (42_crc.md rule R125). -/
theorem crcBytes_append (c : Word) (a b : List Byte) : crcBytes c (a ++ b) = crcBytes (crcBytes c a) b := by
  induction a generalizing c with
  | nil => rfl
  | cons x a ih => exact ih (crcByte c x)

/-- The byte step is linear over GF(2) in the register and the byte together (42_crc.md rule R125). -/
theorem crcByte_xor (c1 c2 : Word) (b1 b2 : Byte) :
    crcByte (c1 ^^^ c2) (b1 ^^^ b2) = crcByte c1 b1 ^^^ crcByte c2 b2 := by
  simp only [crcByte_eq, ← crcShifts_xor, BitVec.setWidth_xor]
  congr 1
  ac_rfl

theorem crcByte_zero_zero : crcByte 0 0 = 0 := by decide

theorem crcBytes_zero_replicate (n : Nat) : crcBytes 0 (List.replicate n 0) = 0 := by
  induction n with
  | zero => rfl
  | succ n ih => rw [List.replicate_succ, crcBytes_cons, crcByte_zero_zero, ih]

theorem byteLane_eq (w : Word) (k : Nat) : byteLane w k = (w >>> (8 * k)).setWidth 8 := by
  ext j hj
  simp [byteLane]

theorem wordBytes_eq (w : Word) : wordBytes w =
    [w.setWidth 8, (w >>> 8).setWidth 8, (w >>> 8 >>> 8).setWidth 8, (w >>> 8 >>> 8 >>> 8).setWidth 8] := by
  simp only [wordBytes, byteLane_eq, ← BitVec.shiftRight_add]
  rfl

theorem ushiftRight_fourBytes (w : Word) : w >>> 8 >>> 8 >>> 8 >>> 8 = 0#32 := by
  simp only [← BitVec.shiftRight_add]
  exact BitVec.ushiftRight_eq_zero (by decide)

/-- Feeding a word is 32 iterations on the register with the word XORed in: each byte step takes the low byte and leaves
the others to be XORed in by the next. -/
theorem crcBytes_wordBytes (c w : Word) : crcBytes c (wordBytes w) = crcShifts 32 (c ^^^ w) := by
  have step (n : Nat) (c w : Word) :
      crcShifts (8 + n) (c ^^^ w) = crcShifts n (crcByte c (w.setWidth 8) ^^^ w >>> 8) := by
    rw [crcShifts_add, crcShifts_eight_xor]
  symm
  calc crcShifts 32 (c ^^^ w)
      = crcShifts (8 + (8 + (8 + (8 + 0)))) (c ^^^ w) := rfl
    _ = crcBytes c (wordBytes w) := by
      rw [step, step, step, step, ushiftRight_fourBytes, BitVec.xor_zero, wordBytes_eq]
      rfl

/-- The register after a string and its checksum, low byte first: the checksum XORs the register to all ones, whatever
the string (42_crc.md rule R125, the residue). -/
theorem crcBytes_append_checksum (m : List Byte) : crcBytes 0xFFFFFFFF (m ++ wordBytes (crc32 m)) = 0xDEBB20E3 := by
  have hones : crcBytes 0xFFFFFFFF m ^^^ crc32 m = 0xFFFFFFFF := by
    rw [crc32, Config.crcInitial, ← BitVec.xor_assoc, BitVec.xor_self]
    rfl
  rw [crcBytes_append, crcBytes_wordBytes, hones]
  decide +kernel

/-- Settles O43: concatenation by induction, linearity iteration by iteration, and the residue from the checksum as a
word. -/
theorem crcConcatenationLinearityResidue : Obligations.CrcConcatenationLinearityResidue :=
  ⟨crcBytes_append, crcByte_xor, crcBytes_zero_replicate, crcBytes_append_checksum⟩

/-! ### The operations -/

/-- Settles O32: the row of the table, and the two values of INIT. -/
theorem crcCtrlWriteInitializes : Obligations.CrcCtrlWriteInitializes := by
  refine ⟨isFourByteOperation (i := .crcCtrlWr 0) (fun _ => rfl) (.inr (by decide)),
    fun s v => ⟨fun h => ?_, fun h => ?_⟩⟩
  · rw [exec_crcCtrlWr, if_pos h]
    rfl
  · rw [exec_crcCtrlWr, h]
    rfl

/-- Settles O33: the row of the table, and the read of a register that stores nothing. -/
theorem crcCtrlReadsZero : Obligations.CrcCtrlReadsZero :=
  ⟨isFourByteOperation (i := .crcCtrlRd) (fun _ => rfl) (.inl rfl), exec_crcCtrlRd⟩

/-- The byte step with a zero byte, given the table entry of the low byte. -/
def shiftInto (t c : Word) : Word :=
  t ^^^ c >>> 8

theorem crcByte_zero_eq (c : Word) : crcByte c 0x00 = shiftInto (crcTableEntry (c.setWidth 8)) c := by
  rw [crcByte_eq_table, shiftInto]
  congr 3
  exact BitVec.xor_zero

/-- Four shifts with one entry forget the register. -/
theorem shiftInto_iterate_four (t c : Word) : (shiftInto t)^[4] c = (shiftInto t)^[4] 0 := by
  simp only [Function.iterate_succ, Function.iterate_zero, Function.comp_apply, id_eq, shiftInto,
    BitVec.ushiftRight_xor_distrib, ushiftRight_fourBytes]

/-- A zero byte leaves only 0 in place: the table entry of its low byte determines a register that it leaves, and only
the low byte 0 agrees with the register so determined. -/
theorem crcByte_zero_eq_self_iff (c : Word) : crcByte c 0x00 = c ↔ c = 0 := by
  have lowByte : ∀ i : Byte, i = ((shiftInto (crcTableEntry i))^[4] 0).setWidth 8 → i = 0 := by decide +kernel
  refine ⟨fun h => ?_, fun h => h ▸ crcByte_zero_zero⟩
  rw [crcByte_zero_eq] at h
  have hc : c = (shiftInto (crcTableEntry (c.setWidth 8)))^[4] 0 :=
    (Function.iterate_fixed h 4).symm.trans (shiftInto_iterate_four _ c)
  rw [lowByte _ (congrArg (BitVec.setWidth 8) hc)] at hc
  exact hc.trans (by decide)

/-- Settles O34: the row of the table, the checks in their order, and the byte step. -/
theorem crcDataWrite8FeedsOneByte : Obligations.CrcDataWrite8FeedsOneByte := by
  refine ⟨fun v => decode_ofDescriptor_descriptor (.crcDataWr8 0) v, fun t hw hsz hoff => ?_, exec_crcDataWr8,
    crcByte_zero_eq_self_iff, by decide, by decide⟩
  have hne : t.sz ≠ 0b11 := by rw [hsz]; decide
  have hnot : t.sizePermitted = false := Bool.eq_false_iff.mpr fun h => by
    rcases (sizePermitted_iff hne).mp h with h4 | ⟨-, h14⟩
    · exact absurd (hsz.symm.trans h4) (by decide)
    · exact hoff h14
  have hdefined := sizeDefined_iff.mpr hne
  obtain ⟨-, halign, hunmapped, hsize, -⟩ := decodeChecksInSpecOrder t
  exact ⟨fun ha hm => hsize hdefined ha hm hnot, halign hdefined, hunmapped hdefined⟩

/-- Settles O35: the row of the table, and the two bytes of the half word in order. -/
theorem crcDataWrite16FeedsLowByteFirst : Obligations.CrcDataWrite16FeedsLowByteFirst :=
  ⟨fun v => decode_ofDescriptor_descriptor (.crcDataWr16 0) v,
    fun s h => ⟨exec_crcDataWr16 s h, _, _, exec_crcDataWr8 s _, exec_crcDataWr8 _ _, rfl⟩⟩

/-- CRC_DATA takes a write of every defined size (30_encoding.md rule R63). -/
theorem decode_crcData_write {t : Transaction} (hw : t.w = true) (hoff : t.off = 0x14) (hsz : t.sz ≠ 0b11) :
    decode t = .ok (operationAt t .crcData) :=
  decode_of_checks hsz hoff (.inr ⟨hw, hoff⟩)

/-- Settles O36: the row of the table, the sizes of CRC_DATA, and the four bytes of the word in order. -/
theorem crcDataWrite32FeedsLowByteFirst : Obligations.CrcDataWrite32FeedsLowByteFirst := by
  refine ⟨fun v => decode_ofDescriptor_descriptor (.crcDataWr32 0) v,
    fun t hw hoff => ⟨fun h => ?_, decode_reservedSize⟩, exec_crcDataWr32, by decide +kernel, by decide +kernel⟩
  by_contra hsz
  cases h.symm.trans (decode_crcData_write hw hoff hsz)

/-- Settles O37: the row of the table, the load, and INIT as the load of all ones. -/
theorem crcStateWriteLoads : Obligations.CrcStateWriteLoads :=
  ⟨isFourByteOperation (i := .crcStateWr 0) (fun _ => rfl) (.inr (by decide)), exec_crcStateWr, fun _ => rfl⟩

/-- Settles O38: the row of the table, and the read of the stored register. -/
theorem crcStateReadReturnsRaw : Obligations.CrcStateReadReturnsRaw :=
  ⟨isFourByteOperation (i := .crcStateRd) (fun _ => rfl) (.inl rfl), exec_crcStateRd, State.reset_crcState⟩

/-- Settles O39: the row of the table, and the output transform as the complement. -/
theorem crcResultReadReturnsComplement : Obligations.CrcResultReadReturnsComplement :=
  ⟨isFourByteOperation (i := .crcResultRd) (fun _ => rfl) (.inl rfl), exec_crcResultRd, fun _ => BitVec.xor_allOnes,
    rfl⟩

/-- Settles O40: the row of the table, and the read of a register that stores nothing. -/
theorem crcDataReadsZero : Obligations.CrcDataReadsZero :=
  ⟨isFourByteOperation (i := .crcDataRd) (fun _ => rfl) (.inl rfl), exec_crcDataRd⟩

/-- Settles O41: the row of the table, and the write without an effect. -/
theorem crcResultWriteIgnored : Obligations.CrcResultWriteIgnored :=
  ⟨isFourByteOperation (i := .crcResultWr 0) (fun _ => rfl) (.inr (by decide)), exec_crcResultWr⟩

/-! ### Host programs as operations -/

/-- The operations of a pseudo-instruction (30_encoding.md rule R73). -/
def PseudoOp.operations : PseudoOp → List Instr
  | .crcInit => [.crcCtrlWr 1]
  | .crcB b => [.crcDataWr8 b]
  | .crcH h => [.crcDataWr16 h]
  | .crcW w => [.crcDataWr32 w]
  | .crcBytes bs => bs.map .crcDataWr8
  | .crcGet => [.crcResultRd]
  | .crcSave => [.crcStateRd]
  | .crcRestore v => [.crcStateWr v]
  | .crc32 bs => [.crcCtrlWr 1] ++ bs.map .crcDataWr8 ++ [.crcResultRd]
  | .qnt s => [.qntInWr s]
  | .qntGet => [.qntOutRd]
  | .qntFlags => [.qntStatusRd]
  | .qntClr m => [.qntStatusWr m]

/-- A host operation with the fields of an operation of the table is its encoding. -/
theorem HostOp.transaction_eq_encode {h : HostOp} {i : Instr}
    (e : h.transaction = { w := !i.isRead, sz := i.size, off := i.reg.offset, wdata := i.wdata }) :
    h.transaction = encode i :=
  e.trans (i.ofDescriptor_descriptor i.wdata).symm

/-- Every host operation of an expansion is the encoding of an operation. -/
theorem PseudoOp.transactions_eq (op : PseudoOp) : op.expand.map HostOp.transaction = op.operations.map encode := by
  have single {h : HostOp} {i : Instr} (e : h.transaction = encode i) : [h].map HostOp.transaction = [i].map encode :=
    congrArg (fun t => [t]) e
  have feeds (bs : List Byte) : (bs.map (HostOp.wr8 Reg.crcData.offset)).map HostOp.transaction =
      (bs.map Instr.crcDataWr8).map encode := by
    rw [List.map_map, List.map_map]
    exact List.map_congr_left fun b _ => HostOp.transaction_eq_encode (i := .crcDataWr8 b) rfl
  cases op with
  | crcBytes bs => exact feeds bs
  | crc32 bs =>
    simp only [expand, operations, List.map_append, feeds]
    exact congrArg₂ (fun x y => x ++ _ ++ y) (single (HostOp.transaction_eq_encode rfl))
      (single (HostOp.transaction_eq_encode rfl))
  | _ => exact single (HostOp.transaction_eq_encode rfl)

/-- What a host program sends is the encodings of its operations. -/
theorem hostEvents_eq (ops : List PseudoOp) :
    hostEvents ops = ((ops.flatMap PseudoOp.operations).map encode).map .transaction := by
  rw [List.map_flatMap, List.map_flatMap]
  refine List.flatMap_congr fun op _ => ?_
  rw [← op.transactions_eq, List.map_map]
  rfl

/-- The state an operation leaves, its response given. -/
def afterOperation (s : State) (i : Instr) : State :=
  (effectOf i s).complete (readDataOf i s)

theorem afterOperation_responses (s : State) (i : Instr) :
    (afterOperation s i).responses = s.responses ++ [.ok (readDataOf i s)] := by
  simp [afterOperation]

theorem afterOperation_crcState (s : State) (i : Instr) : (afterOperation s i).crcState = (effectOf i s).crcState := rfl

theorem foldl_afterTransaction_encode (is : List Instr) (s : State) :
    (is.map encode).foldl afterTransaction s = is.foldl afterOperation s := by
  rw [List.foldl_map]
  exact congrArg (fun f => is.foldl f s) (funext₂ fun s i => afterTransaction_ok (decode_encode i) s)

/-- The run over the transactions that stand first in the queue. -/
theorem runsTo_of_pending {s : State} {ts : List Transaction} {rest : List BusEvent} (hp : s.phase = .operating)
    (h : s.pending = ts.map .transaction ++ rest) :
    RunsTo s ts.length (ts.foldl afterTransaction (s.arrive rest)) :=
  (run_eq_performAll ts h).trans (performAll_eq ts (s := s.arrive rest) hp)

/-- The run over a queue of transactions, to its end. -/
theorem runsTo_end {s : State} {ts : List Transaction} (hp : s.phase = .operating)
    (h : s.pending = ts.map .transaction) :
    RunsTo s s.pending.length (ts.foldl afterTransaction (s.arrive [])) ∧
      (ts.foldl afterTransaction (s.arrive [])).pending = [] := by
  refine ⟨?_, foldl_afterTransaction_pending ts _⟩
  rw [h, List.length_map]
  exact runsTo_of_pending hp (h.trans (List.append_nil _).symm)

/-! ### Feeding a stream -/

/-- From `s` to `t` the bytes were fed, and each transaction answered OK with RDATA 0. -/
structure State.Fed (s : State) (bytes : List Byte) (t : State) : Prop where
  crcState : t.crcState = crcBytes s.crcState bytes
  acks : ∃ acks : List Response, (∀ r ∈ acks, r = .ok 0) ∧ t.responses = s.responses ++ acks

theorem State.Fed.nil (s : State) : s.Fed [] s :=
  ⟨rfl, [], by simp, by simp⟩

/-- Feeds compose to the concatenation of their bytes. -/
theorem State.Fed.append {s t u : State} {a b : List Byte} (h : s.Fed a t) (h' : t.Fed b u) : s.Fed (a ++ b) u := by
  obtain ⟨hc, acks, hok, hr⟩ := h
  obtain ⟨hc', acks', hok', hr'⟩ := h'
  refine ⟨by rw [hc', hc, crcBytes_append], acks ++ acks', fun r hmem => ?_, by rw [hr', hr, List.append_assoc]⟩
  exact (List.mem_append.mp hmem).elim (hok r) (hok' r)

/-- A write that feeds bytes. -/
theorem State.Fed.of_effectOf {s : State} {i : Instr} {bytes : List Byte} (h : effectOf i s = s.feedBytes bytes)
    (hr : readDataOf i s = 0) : s.Fed bytes (afterOperation s i) :=
  ⟨congrArg (·.crcState) h, [.ok 0], by simp, by rw [afterOperation_responses, hr]⟩

theorem fed_crcDataWr8s (bs : List Byte) (s : State) : s.Fed bs ((bs.map Instr.crcDataWr8).foldl afterOperation s) := by
  induction bs generalizing s with
  | nil => exact .nil s
  | cons b bs ih => exact (State.Fed.of_effectOf (i := .crcDataWr8 b) rfl rfl).append (ih _)

/-- A feeding pseudo-instruction feeds its bytes, at every width. -/
theorem fed_operations {op : PseudoOp} {bs : List Byte} (h : op.fedBytes = some bs) (s : State) :
    s.Fed bs (op.operations.foldl afterOperation s) := by
  cases op with
  | crcB | crcH | crcW =>
    obtain rfl := Option.some.inj h
    exact .of_effectOf rfl rfl
  | crcBytes bs =>
    obtain rfl := Option.some.inj h
    exact fed_crcDataWr8s bs s
  | _ => cases h

/-- A list of feeds feeds all their bytes in order. -/
theorem fed_feeds {feeds : List PseudoOp} {chunks : List (List Byte)}
    (h : feeds.map PseudoOp.fedBytes = chunks.map some) (s : State) :
    s.Fed chunks.flatten ((feeds.flatMap PseudoOp.operations).foldl afterOperation s) := by
  induction feeds generalizing chunks s with
  | nil =>
    obtain rfl : chunks = [] := List.map_eq_nil_iff.mp h.symm
    exact .nil s
  | cons op feeds ih =>
    cases chunks with
    | nil => cases h
    | cons bs chunks =>
      obtain ⟨hop, hfeeds⟩ := List.cons.inj h
      rw [List.flatMap_cons, List.foldl_append, List.flatten_cons]
      exact (fed_operations hop s).append (ih hfeeds _)

/-- INIT starts a stream at all ones, whatever the register held, and answers OK. -/
theorem afterOperation_init (s : State) : (afterOperation s (.crcCtrlWr 1)).crcState = 0xFFFFFFFF ∧
    (afterOperation s (.crcCtrlWr 1)).responses = s.responses ++ [.ok 0] := ⟨rfl, rfl⟩

/-- INIT and a list of feeds leave the register of all their bytes and an OK for each write; the two reads come after. -/
theorem foldl_init_feeds_reads {feeds : List PseudoOp} {chunks : List (List Byte)}
    (h : feeds.map PseudoOp.fedBytes = chunks.map some) (s : State) :
    ∃ u : State, u.crcState = crcBytes 0xFFFFFFFF chunks.flatten ∧
      (∃ acks : List Response, (∀ r ∈ acks, r = .ok 0) ∧ u.responses = s.responses ++ acks) ∧
      (List.flatMap PseudoOp.operations ([.crcInit] ++ feeds ++ [.crcGet, .crcSave])).foldl afterOperation s =
        afterOperation (afterOperation u .crcResultRd) .crcStateRd := by
  obtain ⟨hinit, hack⟩ := afterOperation_init s
  obtain ⟨hc, acks, hok, hr⟩ := fed_feeds h (afterOperation s (.crcCtrlWr 1))
  refine ⟨_, hinit ▸ hc, ⟨.ok 0 :: acks, by simpa using hok, ?_⟩, ?_⟩
  · rw [hr, hack, List.append_assoc, List.singleton_append]
  · rw [List.flatMap_append, List.flatMap_append, List.foldl_append, List.foldl_append]
    rfl

/-- Settles O44: INIT, the feeds as one feed of their bytes, and the two reads. -/
theorem checksumOfAnyFeed : Obligations.ChecksumOfAnyFeed := by
  refine ⟨fun s feeds chunks hp hfeeds hpend => ?_, by decide +kernel, by decide +kernel⟩
  obtain ⟨hrun, hend⟩ := runsTo_end hp (hpend.trans (hostEvents_eq _))
  obtain ⟨u, hc, ⟨acks, hok, hr⟩, hu⟩ := foldl_init_feeds_reads hfeeds (s.arrive [])
  rw [foldl_afterTransaction_encode, hu] at hrun hend
  have hread : (afterOperation u .crcResultRd).crcState = u.crcState := afterOperation_crcState u .crcResultRd
  refine ⟨_, hrun, hend, hc, acks, hok, ?_⟩
  simp [afterOperation_responses, readDataOf, hr, hread, hc]

/-! ### Saving and restoring a stream -/

theorem afterOperation_getLast? (s : State) (i : Instr) :
    (afterOperation s i).responses.getLast? = some (.ok (readDataOf i s)) := by
  rw [afterOperation_responses, List.getLast?_concat]

/-- One part of a stream: a load of the register, bytes fed one by one, and a read. -/
def streamPart (load : Instr) (bs : List Byte) (read : Instr) : List Instr :=
  load :: (bs.map .crcDataWr8 ++ [read])

theorem streamPart_length (load : Instr) (bs : List Byte) (read : Instr) :
    (streamPart load bs read).length = bs.length + 2 := by
  simp [streamPart]

theorem hostEvents_initPart (bs : List Byte) : hostEvents [.crcInit, .crcBytes bs, .crcSave] =
    ((streamPart (.crcCtrlWr 1) bs .crcStateRd).map encode).map .transaction :=
  hostEvents_eq _

theorem hostEvents_restoredPart (v : Word) (bs : List Byte) : hostEvents [.crcRestore v, .crcBytes bs, .crcGet] =
    ((streamPart (.crcStateWr v) bs .crcResultRd).map encode).map .transaction :=
  hostEvents_eq _

/-- The read that ends a part is of the register that its load and its bytes leave. -/
theorem foldl_streamPart (load : Instr) (bs : List Byte) (read : Instr) (s : State) :
    ∃ u : State, u.crcState = crcBytes (effectOf load s).crcState bs ∧
      ((streamPart load bs read).map encode).foldl afterTransaction s = afterOperation u read := by
  refine ⟨_, (fed_crcDataWr8s bs (afterOperation s load)).crcState, ?_⟩
  rw [foldl_afterTransaction_encode]
  exact List.foldl_append

/-- Settles O45: the second part starts from the restored register, so it ends where the whole string would, whatever
ran in between. -/
theorem savedStreamResumesExactly : Obligations.SavedStreamResumesExactly := by
  intro s a b other hp hpend
  rw [hostEvents_initPart, hostEvents_restoredPart] at hpend
  have hsave := runsTo_of_pending hp (hpend.trans (List.append_assoc ..))
  obtain ⟨u, hu, hm⟩ := foldl_streamPart (.crcCtrlWr 1) a .crcStateRd (s.arrive _)
  rw [hm, List.length_map, streamPart_length] at hsave
  rw [← List.map_append, ← List.map_append] at hpend
  obtain ⟨hrun, hend⟩ := runsTo_end hp hpend
  obtain ⟨w, hw, ht⟩ := foldl_streamPart (.crcStateWr (crcBytes 0xFFFFFFFF a)) b .crcResultRd _
  rw [List.foldl_append, ht] at hrun hend
  refine ⟨_, _, hsave, ?_, hrun, hend, ?_⟩
  · rw [afterOperation_getLast?]
    exact congrArg (fun c => some (Response.ok c)) hu
  · rw [afterOperation_getLast?]
    have hwhole : w.crcState = crcBytes 0xFFFFFFFF (a ++ b) := hw.trans (crcBytes_append _ a b).symm
    exact congrArg (fun c => some (Response.ok (c ^^^ 0xFFFFFFFF))) hwhole

end Sys2Proof.Machine
end

section
/-! PROOFS. Errors (60_exceptions.md): the bus error as the only one and what it leaves, and that no data value causes
one. -/

namespace Sys2Proof

/-- An accepted transaction stays accepted with other write data, as the operation of the same row. -/
theorem decode_withWdata_of_ok {t : Transaction} {i : Instr} (h : decode t = .ok i) (v : Word) :
    decode { t with wdata := v } = .ok (i.withWdata v) := by
  have ht : { t with wdata := v } = Transaction.ofDescriptor i.descriptor v :=
    congrArg (fun u : Transaction => { u with wdata := v }) (eq_ofDescriptor_of_decode h)
  rw [ht]
  exact decode_ofDescriptor_descriptor i v

/-- The write data reaches the operand of the selected operation and no check of the decoder. -/
theorem decode_withWdata (t : Transaction) (v : Word) :
    decode { t with wdata := v } = (decode t).map (·.withWdata v) := by
  by_cases hsz : t.sz = 0b11
  · rw [decode_reservedSize hsz]
    exact decode_reservedSize hsz
  by_cases hal : t.off.extractLsb' 0 2 = 0b00
  case neg =>
    rw [decode_misaligned hsz hal]
    exact decode_misaligned hsz hal
  cases hr : Reg.ofOffset t.off with
  | none =>
    rw [decode_unmapped hsz hal hr]
    exact decode_unmapped hsz hal hr
  | some r =>
    have hoff : t.off = r.offset := Reg.ofOffset_eq_some hr
    by_cases hp : t.sz = 0b10 ∨ (t.w = true ∧ t.off = 0x14)
    · have hok := decode_of_checks hsz hoff hp
      rw [hok]
      exact decode_withWdata_of_ok hok v
    · rw [decode_unpermittedSize hsz hoff hp]
      exact decode_unpermittedSize hsz hoff hp

theorem decode_withWdata_eq_error_iff {t : Transaction} (v : Word) {c : BusErrorCause} :
    decode { t with wdata := v } = .error c ↔ decode t = .error c := by
  rw [decode_withWdata]
  cases decode t <;> simp [Except.map]

end Sys2Proof

namespace Sys2Proof.Machine

theorem step_busError {s : State} {t : Transaction} {rest : List BusEvent} {c : BusErrorCause}
    (hpend : s.pending = .transaction t :: rest) (hp : s.phase = .operating) (hd : decode t = .error c) :
    step s = .next ((s.arrive rest).busError c) :=
  (step_transaction hpend).trans (perform_error (s := s.arrive rest) hp hd)

/-- Settles O6: the erroring step adds its response and nothing else, so the registers are still specified and the next
transaction is an ordinary step from that state. -/
theorem busErrorWritesNoState : Obligations.BusErrorWritesNoState :=
  fun s _ rest c hpend hp hd =>
    ⟨Response.resp_error c, Response.rdata_error c, step_busError hpend hp hd, fun t' rest' i hrest hd' =>
      stepRunsDecodedOperation ((s.arrive rest).busError c) t' rest' i hrest hp hd'⟩

/-- Settles O7: RESP and RDATA of an error response are constants. -/
theorem causeIsNotCarriedByTheBus : Obligations.CauseIsNotCarriedByTheBus :=
  ⟨rfl, rfl, rfl, fun c c' =>
    ⟨(Response.resp_error c).trans (Response.resp_error c').symm,
      (Response.rdata_error c).trans (Response.rdata_error c').symm⟩⟩

/-- Settles O52: every operation answers OK with its read data, and no check of the decoder reads the write data. -/
theorem noDataDependentErrors : Obligations.NoDataDependentErrors :=
  ⟨fun i s => ⟨_, readDataOf i s, exec_eq i s, by simp⟩, fun _ v _ => (decode_withWdata_eq_error_iff v).symm⟩

end Sys2Proof.Machine
end

section
/-! PROOFS. Reset and hazards (70_reset_and_hazards.md): the access before reset, and the queues that no such access
stops. -/

namespace Sys2Proof.Machine

/-! ### The access before reset -/

theorem step_transaction_unspecified {s : State} {t : Transaction} {rest : List BusEvent}
    (h : s.pending = .transaction t :: rest) (hp : s.phase = .unspecified) : step s = .refused .beforeReset :=
  (step_transaction h).trans (perform_unspecified (s := s.arrive rest) t hp)

/-- Settles O3: the equation of the step for a loss of power, and for a transaction in the phase it leaves. -/
theorem accessBeforeResetRefused : Obligations.AccessBeforeResetRefused :=
  ⟨rfl, fun _ _ hpend => ⟨_, step_powerLoss hpend, rfl, rfl⟩, fun _ _ _ hpend hp =>
    step_transaction_unspecified hpend hp⟩

/-! ### Queues performed to their end -/

@[simp] theorem eventsSafe_nil (p : Phase) : eventsSafe p [] = true := by cases p <;> rfl

@[simp] theorem eventsSafe_transaction_operating (t : Transaction) (rest : List BusEvent) :
    eventsSafe .operating (.transaction t :: rest) = eventsSafe .operating rest := rfl

@[simp] theorem eventsSafe_transaction_unspecified (t : Transaction) (rest : List BusEvent) :
    eventsSafe .unspecified (.transaction t :: rest) = false := rfl

@[simp] theorem eventsSafe_reset (p : Phase) (o : Option Transaction) (rest : List BusEvent) :
    eventsSafe p (.reset o :: rest) = eventsSafe .operating rest := by cases p <;> rfl

@[simp] theorem eventsSafe_powerLoss (p : Phase) (rest : List BusEvent) :
    eventsSafe p (.powerLoss :: rest) = eventsSafe .unspecified rest := by cases p <;> rfl

/-- The oldest event of a queue either takes effect, and the queue is safe exactly when what waits behind the event is
safe in the phase it leaves, or it is an access before reset, and the queue is not safe. -/
theorem step_event {s : State} {e : BusEvent} {rest : List BusEvent} (h : s.pending = e :: rest) :
    (∃ s', step s = .next s' ∧ s'.pending = rest ∧ eventsSafe s.phase (e :: rest) = eventsSafe s'.phase rest) ∨
      (step s = .refused .beforeReset ∧ eventsSafe s.phase (e :: rest) = false) := by
  cases e with
  | transaction t =>
    cases hp : s.phase with
    | operating =>
      obtain ⟨s', hs', hpend, hp', -⟩ := perform_next t (s := s.arrive rest) hp
      exact .inl ⟨s', (step_transaction h).trans hs', hpend, by simp [hp']⟩
    | unspecified => exact .inr ⟨step_transaction_unspecified h hp, eventsSafe_transaction_unspecified t rest⟩
  | reset o => exact .inl ⟨_, step_reset h, rfl, eventsSafe_reset _ o rest⟩
  | powerLoss => exact .inl ⟨_, step_powerLoss h, rfl, eventsSafe_powerLoss _ rest⟩

theorem eventsSafe_iff_runsTo_end {s : State} {es : List BusEvent} (h : s.pending = es) :
    eventsSafe s.phase es = true ↔ ∃ t, RunsTo s es.length t ∧ t.pending = [] := by
  induction es generalizing s with
  | nil => exact iff_of_true (eventsSafe_nil _) ⟨s, run_zero s, h⟩
  | cons e rest ih =>
    rw [List.length_cons]
    obtain ⟨s', hstep, hpend, hsafe⟩ | ⟨hstep, hsafe⟩ := step_event h
    · simp only [RunsTo, run_succ_of_next _ hstep, hsafe]
      exact ih hpend
    · simp [RunsTo, run_succ_of_refused _ hstep, hsafe]

/-- Settles O4, by induction on the queue. -/
theorem safeEventsRunToTheEnd : Obligations.SafeEventsRunToTheEnd :=
  fun _ => eventsSafe_iff_runsTo_end rfl

end Sys2Proof.Machine
end
